-- ==== Sys2Proof/Word.lean ====
section
/-! DEFINITION. The words of the part: bytes of the service stream, 24-bit audio samples, 32-bit instants, and the
index ranges of the Conventions (spec/00_scope.md, "Indexing"). -/

namespace Sys2Proof

/-- One byte of a service stream or of a message. -/
abbrev Byte := BitVec 8

/-- A 24-bit two's complement audio sample (Conventions, "Samples"). -/
abbrev Sample := BitVec 24

/-- A house frame count value (Conventions, "House frame count and instants"). -/
abbrev Instant := BitVec 32

/-- An inbound link: 0 is A, 3 is D. -/
abbrev LinkId := Fin 4

/-- A slot of one inbound link. -/
abbrev SlotId := Fin 16

/-- A channel, C0 to C31. -/
abbrev ChannelId := Fin 32

/-- A programme, P0 to P7. -/
abbrev ProgId := Fin 8

/-- An alarm rule, 0 to 31. -/
abbrev RuleId := Fin 32

/-- A filter set, 0 to 3. -/
abbrev SetId := Fin 4

/-- The 16 samples of a frame arrival or of a converter's output. -/
abbrev SixteenSamples := Vector Sample 16

end Sys2Proof
end

