-- ==== Sys2Proof/Syntax.lean ====
section
/-! DEFINITION. The commands of the block: one constructor for each row of spec/opcode_table.json. A row's operands are
what comes from outside the part with that event (a link, a pulse's tick, the cells of a link frame, the straps). A
command of the executor has no operand of its own: its request is the message at the head of the command queue, which
State holds (R158). -/

namespace Sys2Proof

/-- One audio slot of a link frame: 24-bit sample and valid mark (section 11.2). -/
structure SlotCell where
  sample : Sample
  valid : Bool
  deriving DecidableEq, Repr

/-- The contents of the 439 cells of a link frame, field by field in the order of section 11.2. -/
structure LinkFrame where
  align : BitVec 16
  slots : List SlotCell
  start : Bool
  present0 : Bool
  byte0 : Byte
  present1 : Bool
  byte1 : Byte
  maj : Bool
  min : Bool
  ntc : Bool
  parity : Bool
  deriving DecidableEq, Repr

/-- What a receiver's look for the alignment word meets (R14): the bit position on the line, and whether the word is there. -/
structure WordLook where
  pos : Nat
  found : Bool
  deriving DecidableEq, Repr

/-- The cause of a hardware reset (R164). -/
inductive ResetCause where
  | powerOn
  | resetPin
  deriving DecidableEq, Repr

/-- The commands, in the order of spec/opcode_table.json. -/
inductive Instr where
  -- the whole part and the timebase
  | hardwareReset (cause : ResetCause) (rate96 : Bool) (addr : BitVec 6) (mlk : LinkId)
  | houseFrame
  | refPulse (tick : Nat)
  | expectedInstantReached
  | acceptanceWindowClose
  | pulsesLost
  | goodCountComplete
  | refinementBlockComplete
  | sliceBoundary
  -- the link receivers and the assembler
  | lineTransition (l : LinkId)
  | activityTimeout (l : LinkId)
  | alignmentWordFound (l : LinkId) (look : WordLook)
  | linkFrame (l : LinkId) (f : LinkFrame)
  | assemblerTimeout
  -- the rate converters
  | leaveDark (l : LinkId)
  | acquisitionEnd (l : LinkId)
  | unsupportedBlockEnd (l : LinkId)
  | directAcquisitionEnd (l : LinkId)
  | servoUpdate (l : LinkId)
  | spliceJump (l : LinkId)
  | spliceEnd (l : LinkId)
  -- the delay store controller
  | slewStep (c : ChannelId)
  | cutJump (c : ChannelId)
  | cutEnd (c : ChannelId)
  -- the gain stage
  | queueService (p : ProgId)
  | rampStep (p : ProgId)
  -- the alarm engine
  | alarmRaise (r : RuleId)
  | alarmTimerOut (r : RuleId)
  -- the table store and the management port
  | takeSwap
  | copyBackComplete
  | heldReplyPlaced
  | messageBoundary
  -- the commands of the executor
  | identify
  | readStatus
  | readLink
  | readProgramme
  | readSlice
  | readEntries
  | writeEntries
  | fillEntries
  | take
  | cancelTake
  | setDelay
  | setTarget
  | setTrim
  | mute
  | unmute
  | ackAlarm
  | enableRule
  | disableRule
  | restorePrimary
  | resetIntegrator
  | readContext
  | loadContext
  | resetDomains
  | unknownCode
  deriving DecidableEq, Repr

end Sys2Proof
end

