-- ==== Sys2Proof/Config.lean ====
section
/-! DEFINITION. The free values: constants with no body, for what the spec leaves without a value or leaves to either
of two orders. (The numbers the chapters do give stand in Sys2Proof/Machine/Constants.lean.) -/

namespace Sys2Proof.Config

/-- FREE VALUE. What READ PROGRAMME sends as the latest power P of a present programme for which no power has been
formed since its history was last cleared: R93 presents "the latest power P" and 11.6 gives the field no none code.
DESIGN CHOICE (log entry 8). -/
opaque unformedPower : Nat → BitVec 48

/-- FREE VALUE. What the 16-bit arrival count n holds after an arrival that would take it above 65,535: the state table
of chapter 3 gives n the range 0 to 2^16 − 1 and no rule says what happens at its end. DESIGN CHOICE (log entry 9). -/
opaque arrivalCountPastEnd : Nat → BitVec 16

/-- FREE VALUE. Whether, in one RESET DOMAINS, the DELAY part is taken after the LINKS part: R76 and R176 let the two
be taken in either order, with different outcomes. DESIGN CHOICE (log entry 10). -/
opaque delayAfterLinks : Nat → Bool

/-- FREE VALUE. Whether, in one RESET DOMAINS, the DELAY part is taken after the ALARMS part (R176). DESIGN CHOICE
(log entry 10). -/
opaque delayAfterAlarms : Nat → Bool

end Sys2Proof.Config
end

