-- ==== Sys2Proof/Machine/Constants.lean ====
section
/-! DEFINITION. The numbers and fixed tables that the chapters give once: rates, slice lengths, the alignment word, the
ratio range, and the log and gain tables. -/

namespace Sys2Proof.Machine


/-- The part code that IDENTIFY returns (R170). -/
def partCode : Nat := 3204

/-- The design revision number that IDENTIFY returns (R170). -/
def revision : Nat := 1

/-- The nominal held period of each house rate, in 1/256 tick (section 1.1): 96 kHz when the strap is high. -/
def nominalHeld (rate96 : Bool) : Nat := if rate96 then 262144 else 524288

/-- House frames in one slice (section 1.1). -/
def sliceLength (rate96 : Bool) : Nat := if rate96 then 9600 else 4800

/-- The house rate in Hz, as R41 uses it. -/
def houseRate (rate96 : Bool) : Nat := if rate96 then 96000 else 48000

/-- The alignment word of a link frame (section 11.2): 1101 0100 1010 0011. -/
def alignmentWord : BitVec 16 := 0xD4A3#16

/-- The low end of the supported ratio range, 0.5 in 8.24 (R34). -/
def ratioLow : Nat := 8388608

/-- The high end of the supported ratio range (R34). -/
def ratioHigh : Nat := 37748735

/-- 1.0 in 8.24. -/
def ratioOne : Nat := 16777216

/-- The largest programme power, 248 × 2^34 (R86). -/
def largestPower : Nat := 4260607557632

/-- The log table T, round(256 × log2(1 + m / 32)) for m = 0 to 31 (section 5.3). -/
def logTable : List Nat :=
  [0, 11, 22, 33, 44, 54, 63, 73, 82, 92, 100, 109, 118, 126, 134, 142,
   150, 157, 165, 172, 179, 186, 193, 200, 207, 213, 220, 226, 232, 238, 244, 250]

/-- fine[b] = round(2^22 × 10^(b/200)) for b = 0 to 9 (R108). -/
def fineTable : List Nat :=
  [4194304, 4242872, 4292002, 4341701, 4391975, 4442832, 4494278, 4546319, 4598963, 4652216]

/-- coarse[a] = round(2^20 × 10^(a/20)) for a = −40 to +12, entry a + 40 (R108; note 1 gives the formula). -/
def coarseTable : List Nat :=
  [10486, 11765, 13201, 14812, 16619, 18647, 20922, 23475, 26339, 29553,
   33159, 37205, 41745, 46838, 52553, 58966, 66161, 74233, 83291, 93454,
   104858, 117652, 132008, 148115, 166188, 186466, 209218, 234747, 263390, 295529,
   331589, 372049, 417446, 468382, 525533, 589658, 661607, 742335, 832914, 934544,
   1048576, 1176522, 1320079, 1481153, 1661881, 1864661, 2092184, 2347469, 2633904, 2955289,
   3315888, 3720488, 4174456]

end Sys2Proof.Machine
end

