-- ==== Sys2Proof/Machine/Arith.lean ====
section
/-! DEFINITION. The arithmetic of the Conventions (rounding with ties upward, clamping, saturation), the byte orders of
R183, the CRC-8 of R151, and the sparse cells that hold the delay store and the filter coefficients. -/

namespace Sys2Proof.Machine

/-- round(a / b): to the nearest integer with ties upward, that is floor(a / b + 1/2) (Conventions, "Rounding"). -/
def roundDiv (a : Int) (b : Nat) : Int := (2 * a + b) / (2 * b)

/-- Clamp to [lo, hi] (Conventions, "Saturation"). -/
def clampInt (lo hi x : Int) : Int := if x < lo then lo else if hi < x then hi else x

/-- Saturate to 24 bits (Conventions, "Saturation"). -/
def saturate24 (x : Int) : Sample := BitVec.ofInt 24 (clampInt (-8388608) 8388607 x)

/-- The value lies outside the 24-bit range, so it is saturated (R39, R109). -/
def outside24 (x : Int) : Bool := x < -8388608 || 8388607 < x

/-- Saturate to 26 bits (R80). -/
def saturate26 (x : Int) : Int := clampInt (-33554432) 33554431 x

/-- round(x × g / 64): a sample under a fader that stands at g (R33, R39, R66, R109). -/
def fade (x : Sample) (g : Nat) : Sample := BitVec.ofInt 24 (roundDiv (x.toInt * g) 64)

/-- Add one to a count that saturates at `top`. -/
def countUp (top n : Nat) : Nat := if n < top then n + 1 else top

/-- Add `k` to a count that saturates at `top`. -/
def countUpBy (top k n : Nat) : Nat := if n + k < top then n + k else top

/-- `k` bytes of an unsigned field, most significant byte first (R183). -/
def beBytes : Nat → Nat → List Byte
  | 0, _ => []
  | k + 1, v => BitVec.ofNat 8 (v / 256 ^ k) :: beBytes k v

/-- `k` bytes of a signed field, two's complement at its own width (R183). -/
def beSigned (k : Nat) (v : Int) : List Byte := beBytes k (v % (256 ^ k : Nat)).toNat

/-- The number that bytes spell, most significant byte first (R183). -/
def fromBytes (bs : List Byte) : Nat := bs.foldl (fun a b => a * 256 + b.toNat) 0

/-- The number that `k` bytes spell as a two's complement field of their own width (R183). -/
def fromBytesSigned (bs : List Byte) : Int :=
  let n := fromBytes bs
  if 2 * n < 256 ^ bs.length then n else (n : Int) - (256 ^ bs.length : Nat)

/-- One of the eight steps of the CRC register (R151): shift left by one, and exclusive-or with 0x07 when a 1 left. -/
def crcStep (r : Byte) : Byte := if r.msb then (r <<< 1) ^^^ 0x07#8 else r <<< 1

/-- The CRC register after one more byte (R151). -/
def crcByte (r b : Byte) : Byte :=
  crcStep (crcStep (crcStep (crcStep (crcStep (crcStep (crcStep (crcStep (r ^^^ b))))))))

/-- The CRC register after a string of bytes, from an initial value of 0 (R151). -/
def crc (bs : List Byte) : Byte := bs.foldl crcByte 0#8

/-- Cells of a numbered store in one canonical form: numbers strictly rising, and no cell holding what an unlisted
number reads as. -/
abbrev Cells (α : Type) := List (Nat × α)

/-- Read one cell; `z` is what an unlisted number reads as. -/
def readCell {α : Type} (z : α) : Cells α → Nat → α
  | [], _ => z
  | (b, v) :: rest, a => if a = b then v else readCell z rest a

/-- Put a cell in its place, dropping one of the same number. -/
def putCell {α : Type} : Cells α → Nat → α → Cells α
  | [], a, x => [(a, x)]
  | (b, v) :: rest, a, x =>
    if a < b then (a, x) :: (b, v) :: rest
    else if a = b then (a, x) :: rest
    else (b, v) :: putCell rest a x

/-- Drop the cell of a number, if it is listed. -/
def dropCell {α : Type} : Cells α → Nat → Cells α
  | [], _ => []
  | (b, v) :: rest, a => if a = b then rest else (b, v) :: dropCell rest a

/-- Write one cell, keeping the canonical form: writing what an unlisted number reads as drops the cell. -/
def writeCell {α : Type} [DecidableEq α] (z : α) (m : Cells α) (a : Nat) (x : α) : Cells α :=
  if x = z then dropCell m a else putCell m a x

/-- The canonical form holds. -/
def cellsWf {α : Type} [DecidableEq α] (z : α) : Cells α → Bool
  | [] => true
  | [(_, v)] => decide (v ≠ z)
  | (a, v) :: (b, w) :: rest => decide (v ≠ z) && decide (a < b) && cellsWf z ((b, w) :: rest)

/-- A set of 32 members as a word: bit i is set when i is a member. -/
def insertMember {w : Nat} (set : BitVec w) (i : Fin w) : BitVec w := set ||| BitVec.twoPow w i.val

/-- Take a member out of a set. -/
def eraseMember {w : Nat} (set : BitVec w) (i : Fin w) : BitVec w := set &&& ~~~ BitVec.twoPow w i.val

/-- The set holds the member. -/
def hasMember {w : Nat} (set : BitVec w) (i : Fin w) : Bool := set.getLsbD i.val

/-- All channels, all links, all programmes and all rules, in ascending number. -/
def allChannels : List ChannelId := List.finRange 32
def allLinks : List LinkId := List.finRange 4
def allProgs : List ProgId := List.finRange 8
def allRules : List RuleId := List.finRange 32

end Sys2Proof.Machine
end

