-- ==== Sys2Proof/Machine/Parts.lean ====
section
/-! DEFINITION. The pieces of state, block by block, each with its value after hardware reset: the tables at the head of
chapters 1 to 9 of the spec, and the model's own marks for the house frame in progress (log entry 2). -/

namespace Sys2Proof.Machine

/-! ### Timebase (chapter 1) -/

/-- The reference state (section 1.3). -/
inductive RefState where
  | absent | locked | holdover | regain
  deriving DecidableEq, Repr

/-- The timebase (chapter 1, state table). Times are in 1/256 tick from the end of hardware reset, pulse times in whole
ticks (log entry 6). -/
structure Timebase where
  /-- House rate as latched from the RATE strap: true for 96 kHz. -/
  rate96 : Bool
  /-- Reference state. -/
  ref : RefState
  /-- Held period, in 1/256 tick. -/
  held : Nat
  /-- Expected instant E (REF_LOCKED), in 1/256 tick. -/
  expected : Nat
  /-- E of the window in force has been reached with no pulse accepted, so its frame begins at E (R8). -/
  reached : Bool
  /-- The end of the latest acceptance window whose pulse has been accepted, in 1/512 tick, or none since the entry to
  REF_LOCKED: a pulse no later than it is a stray (R8). -/
  acceptedEnd : Option Nat
  /-- Missing count. -/
  missing : Nat
  /-- Good count. -/
  good : Nat
  /-- Good sum, in ticks. -/
  goodSum : Nat
  /-- Refinement block: how many intervals. -/
  refineCount : Nat
  /-- Refinement block: their sum, in ticks. -/
  refineSum : Nat
  /-- Refinement block: the latest of its pulses, or none until the next accepted pulse restarts it (R9, R10). -/
  refineFrom : Option Nat
  /-- Last pulse time, in ticks, or none. -/
  lastPulse : Option Nat
  /-- Start of the house frame in progress, in 1/256 tick. -/
  frameStart : Nat
  /-- The boundary at which the next house frame has been placed to begin, in 1/256 tick, or none (R2, R6, R8). -/
  boundary : Option Nat
  /-- The running remainder of R2, in 1/256 tick. -/
  remainder : Nat
  /-- House frame count. -/
  hfc : Instant
  /-- Slice phase. -/
  phase : Nat
  /-- Slice index. -/
  slice : BitVec 32
  /-- Reference-lost flag. -/
  lost : Bool
  deriving DecidableEq, Repr

/-- The timebase as the reset ends, with the first house frame begun (R1); its boundary placed by R2. -/
def resetTimebase (rate96 : Bool) : Timebase :=
  { rate96 := rate96, ref := .absent, held := nominalHeld rate96, expected := 0, reached := false,
    acceptedEnd := none, missing := 0, good := 0, goodSum := 0, refineCount := 0, refineSum := 0, refineFrom := none, lastPulse := none,
    frameStart := 0, boundary := some (nominalHeld rate96), remainder := 0, hfc := 0#32, phase := 0, slice := 0#32,
    lost := false }

/-! ### Link receivers (chapter 2) -/

/-- Receiver state. -/
inductive RxState where
  | silent | hunting | framed
  deriving DecidableEq, Repr

/-- A link receiver (section 2.2, state table). -/
structure Receiver where
  state : RxState
  /-- Candidate count. -/
  candidates : Nat
  /-- The bit position at which the receiver looks next: in HUNTING with no candidate the first of its search, with one the
  next frame position; in FRAMED where the next frame begins (R14, R15; log entry 18). -/
  lookAt : Nat
  /-- The bit position of the candidate's first word (R14). -/
  first : Nat
  /-- Bad run. -/
  badRun : Nat
  /-- Parity error count. -/
  parityErrors : Nat
  /-- Alignment error count. -/
  alignErrors : Nat
  /-- Hold copy. -/
  hold : SixteenSamples
  /-- Activity watch, in ticks, as the last event on the line left it (log entry 6). -/
  watch : Nat
  deriving DecidableEq, Repr

/-- Sixteen zero samples. -/
def zeroSamples : SixteenSamples := Vector.replicate 16 0#24

/-- A receiver at hardware reset (R13). -/
def resetReceiver : Receiver :=
  { state := .silent, candidates := 0, lookAt := 0, first := 0, badRun := 0, parityErrors := 0, alignErrors := 0,
    hold := zeroSamples, watch := 0 }

/-! ### Rate converters (chapter 3) -/

/-- Converter state. -/
inductive CvState where
  | dark | acquiring | unsupported | locked | splicing
  deriving DecidableEq, Repr

/-- Splice phase. -/
inductive SplicePhase where
  | fall | rise
  deriving DecidableEq, Repr

/-- A rate converter (chapter 3, state table). -/
structure Conv where
  state : CvState
  /-- Arrival ring. -/
  ring : Vector SixteenSamples 64
  /-- Write count W. -/
  w : BitVec 32
  /-- Measurement count m. -/
  m : Nat
  /-- Arrival count n. -/
  n : Nat
  q0 : Nat
  qInt : Nat
  qApplied : Nat
  /-- Read position R: integer part. -/
  rInt : BitVec 32
  /-- Read position R: fraction. -/
  rFrac : BitVec 24
  /-- Tracking count; 256 only between the frame that reaches it and its servo update (R40). -/
  track : Nat
  /-- Filter set in use, or none. -/
  filter : Option SetId
  /-- Splice fader g. -/
  g : Nat
  splice : SplicePhase
  /-- Frame count of the splice phase. -/
  spliceCount : Nat
  /-- Jump-made mark. -/
  jumped : Bool
  /-- Loss ramp: start values. -/
  rampStart : SixteenSamples
  /-- Loss ramp: count. -/
  rampCount : Nat
  /-- Last output. -/
  last : SixteenSamples
  /-- L_c. -/
  lc : Nat
  /-- Re-acquire window. -/
  window : Nat
  /-- Slip count. -/
  slips : Nat
  /-- Last slip slice, or none. -/
  lastSlip : Option (BitVec 32)
  /-- Saturation count. -/
  saturations : Nat
  /-- F of the last house frame in LOCKED or SPLICING (R54). -/
  fill : Int
  /-- The model's mark: the three conditions of R33 held as the house frame in progress began, and LEAVE DARK has not
  been taken (log entry 14). -/
  leaveDue : Bool
  /-- The model's mark: the house frame in progress is the one after FALL frame 64 with no jump made, and the jump of R43
  has not been taken. -/
  jumpDue : Bool
  deriving DecidableEq, Repr

/-- A converter at hardware reset (R55). -/
def resetConv : Conv :=
  { state := .dark, ring := Vector.replicate 64 zeroSamples, w := 0#32, m := 0, n := 0, q0 := 0, qInt := 0,
    qApplied := 0, rInt := 0#32, rFrac := 0#24, track := 0, filter := none, g := 64, splice := .fall, spliceCount := 1,
    jumped := false, rampStart := zeroSamples, rampCount := 64, last := zeroSamples, lc := 0, window := 0, slips := 0,
    lastSlip := none, saturations := 0, fill := 0, leaveDue := false, jumpDue := false }

/-! ### Tables (chapters 2 to 8) -/

/-- A slot of an inbound link. -/
structure Source where
  link : LinkId
  slot : SlotId
  deriving DecidableEq, Repr

/-- A SLOT_MAP entry (section 2.4). -/
structure SlotEntry where
  primary : Option Source
  backup : Option Source
  /-- Revert policy: true for MANUAL. -/
  manual : Bool
  deriving DecidableEq, Repr

/-- A member of a programme record. -/
structure Member where
  channel : ChannelId
  weight : Nat
  deriving DecidableEq, Repr

/-- Control mode (R100). -/
inductive ControlMode where
  | integrated | short | off
  deriving DecidableEq, Repr

/-- Move mode (section 8.2). -/
inductive MoveMode where
  | slew | cut
  deriving DecidableEq, Repr

/-- A present PROGRAMMES record (section 8.2). -/
structure ProgRecord where
  members : List Member
  target : Int
  mode : ControlMode
  strength : Nat
  deadband : Nat
  boostMax : Nat
  cutMax : Nat
  interval : Nat
  trim : Int
  dt : Nat
  moveMode : MoveMode
  slewInterval : Nat
  offset : Int
  absGate : Int
  gateDepth : Nat
  deriving DecidableEq, Repr

/-- A REGIONS entry that is not NONE (section 4.1). -/
structure Region where
  base : Nat
  count : Nat
  deriving DecidableEq, Repr

/-- One bank of the routing set (chapter 8). -/
structure Routing where
  slotMap : Vector SlotEntry 32
  outputMap : Vector (Option ChannelId) 32
  programmes : Vector (Option ProgRecord) 8
  regions : Vector (Option Region) 32
  deriving DecidableEq, Repr

/-- A bank at hardware reset (R21, R29, R57, R140). -/
def resetRouting : Routing :=
  { slotMap := Vector.replicate 32 { primary := none, backup := none, manual := false },
    outputMap := Vector.replicate 32 none, programmes := Vector.replicate 8 none, regions := Vector.replicate 32 none }

/-- Link mode (section 3.1). -/
inductive LinkMode where
  | off | convert | direct
  deriving DecidableEq, Repr

/-- A LINK_CONFIG entry (section 3.1). -/
structure LinkConfig where
  mode : LinkMode
  gp : Nat
  gi : Nat
  deriving DecidableEq, Repr

/-- An enabled SET_SELECT entry (section 3.9). -/
structure SelectEntry where
  set : SetId
  bound : Nat
  deriving DecidableEq, Repr

/-- The kind of an alarm rule (section 7.1). -/
inductive RuleKind where
  | silence | overload | outputClip | loudnessHigh | loudnessLow | link | slip | ratioLimit | delay | reference
  deriving DecidableEq, Repr

/-- Severity (section 7.1). -/
inductive Severity where
  | notice | minor | major
  deriving DecidableEq, Repr

/-- Action (section 7.1). -/
inductive Action where
  | none | mute | backup
  deriving DecidableEq, Repr

/-- An ALARM_RULES record (section 7.1). -/
structure RuleRecord where
  enabled : Bool
  kind : RuleKind
  subject : Nat
  threshold : Int
  raiseTime : Nat
  clearTime : Nat
  severity : Severity
  latch : Bool
  action : Action
  deriving DecidableEq, Repr

/-- An alarm rule record at hardware reset (R120). -/
def resetRuleRecord : RuleRecord :=
  { enabled := false, kind := .silence, subject := 0, threshold := 0, raiseTime := 0, clearTime := 0,
    severity := .notice, latch := false, action := .none }

/-- Bank state (section 8.3). -/
inductive BankState where
  | editing | armed | copying
  deriving DecidableEq, Repr

/-- The table store (chapter 8, state table). -/
structure Tables where
  bank0 : Routing
  bank1 : Routing
  /-- Active bank marker: true for bank 1. -/
  marker : Bool
  bankState : BankState
  /-- Pending instant, or none. -/
  pendingInstant : Option Instant
  /-- Copy position. -/
  copyPos : Nat
  linkConfig : Vector LinkConfig 4
  /-- FILTER_SETS: entry s × 1,536 + φ × 24 + t; an unlisted entry holds 0. -/
  filters : Cells Int
  /-- SET_SELECT: none for a disabled entry. -/
  setSelect : Vector (Option SelectEntry) 4
  weighting : Vector Int 10
  ruleRecords : Vector RuleRecord 32
  deriving DecidableEq, Repr

/-- The two coefficients of phase φ of the linear interpolator of R50. -/
def linearPhase (φ : Nat) : Cells Int :=
  if φ = 0 then [(11, 262144)] else [(φ * 24 + 11, 4096 * (64 - φ : Int)), (φ * 24 + 12, 4096 * (φ : Int))]

/-- FILTER_SETS at hardware reset: set 0 a linear interpolator, sets 1 to 3 zeros (R50). -/
def resetFilters : Cells Int := (List.range 64).flatMap linearPhase

/-- The pass-through weighting coefficients (R79). -/
def passThrough : Vector Int 10 := #v[4194304, 0, 0, 0, 0, 4194304, 0, 0, 0, 0]

/-- The table store at hardware reset (R31, R50, R51, R79, R120, R140). -/
def resetTables : Tables :=
  { bank0 := resetRouting, bank1 := resetRouting, marker := false, bankState := .editing, pendingInstant := none,
    copyPos := 0, linkConfig := Vector.replicate 4 { mode := .off, gp := 12, gi := 18 }, filters := resetFilters,
    setSelect := #v[some { set := 0, bound := 8388608 }, none, none, none], weighting := passThrough,
    ruleRecords := Vector.replicate 32 resetRuleRecord }

/-! ### Channel router (chapter 2) -/

/-- Source state of a channel (section 2.5). -/
inductive SourceState where
  | primary | backup | pending
  deriving DecidableEq, Repr

/-! ### Delay store controller (chapter 4) -/

/-- Move state with the cut phase (section 4.4, and the codes of 11.3). -/
inductive Move where
  | idle | slew | cutFall | cutRise
  deriving DecidableEq, Repr

/-- A channel's line (chapter 4, state table); its region is its entry of the active REGIONS bank. -/
structure Line where
  /-- Write pointer. -/
  wptr : Nat
  /-- Valid depth V. -/
  v : Nat
  /-- D_line_tgt. -/
  tgt : Nat
  /-- D_line_cur. -/
  cur : Nat
  move : Move
  /-- Slew count. -/
  slew : Nat
  /-- Output splice fader g. -/
  g : Nat
  /-- DELAY_SHORT. -/
  short : Bool
  /-- DELAY_CLAMPED. -/
  clamped : Bool
  /-- The model's mark: the house frame in progress is the one after the fader reached 0, and the jump of R66 has not
  been taken. -/
  jumpDue : Bool
  /-- The model's mark: the distance at which this frame's access reads (log entry 2). -/
  readAt : Nat
  /-- The model's mark: the new distance of a step frame, read beside the old one (R64). -/
  readAlso : Option Nat
  deriving DecidableEq, Repr

/-- A line at hardware reset (R77). -/
def resetLine : Line :=
  { wptr := 0, v := 0, tgt := 0, cur := 0, move := .idle, slew := 0, g := 64, short := false, clamped := false,
    jumpDue := false, readAt := 0, readAlso := none }

/-! ### Measurement and loudness units (chapter 5) -/

/-- The states of one weighting stage (R80). -/
structure Biquad where
  x1 : Int
  x2 : Int
  y1 : Int
  y2 : Int
  deriving DecidableEq, Repr

/-- A building record (section 5.2). -/
structure Building where
  acc : Nat
  peak : Nat
  fsCount : Nat
  outClips : Nat
  deriving DecidableEq, Repr

/-- A latest record (section 5.2). -/
structure Latest where
  acc : Nat
  peak : Nat
  fsCount : Nat
  outClips : Nat
  /-- MS_ch. -/
  ms : Nat
  /-- The slice it covers, or none. -/
  covers : Option (BitVec 32)
  deriving DecidableEq, Repr

/-- A channel's measurement (chapter 5, first state table). -/
structure Meas where
  stage1 : Biquad
  stage2 : Biquad
  building : Building
  latest : Latest
  deriving DecidableEq, Repr

/-- A weighting stage with zero states. -/
def zeroBiquad : Biquad := { x1 := 0, x2 := 0, y1 := 0, y2 := 0 }

/-- A building record at zero. -/
def zeroBuilding : Building := { acc := 0, peak := 0, fsCount := 0, outClips := 0 }

/-- A channel's measurement after hardware reset and after a MEASURE domain reset (R81, R85). -/
def resetMeas : Meas :=
  { stage1 := zeroBiquad, stage2 := zeroBiquad, building := zeroBuilding,
    latest := { acc := 0, peak := 0, fsCount := 0, outClips := 0, ms := 0, covers := none } }

/-- A window (R90). -/
structure Window where
  power : Nat
  /-- Raw level. -/
  raw : Int
  gatedIn : Bool
  admitted : Bool
  deriving DecidableEq, Repr

/-- A programme's loudness state (chapter 5, second state table). The history count is the length of the history, and the
raw integrated level is worked out from S and C (R92). -/
structure Loud where
  /-- Slice power history, newest first. -/
  history : List Nat
  /-- Latest window, or none. -/
  window : Option Window
  /-- Integrator sum S. -/
  sum : Nat
  /-- Integrator count C. -/
  count : Nat
  deriving DecidableEq, Repr

/-- The cleared measurement of a programme (R94, R98). -/
def clearedLoud : Loud := { history := [], window := none, sum := 0, count := 0 }

/-! ### Gain stage (chapter 6) -/

/-- An entry of a gain schedule queue. -/
structure GainEntry where
  due : Instant
  target : Int
  deriving DecidableEq, Repr

/-- Outcome of the last decision (R100 to R102). -/
inductive Decision where
  | noLevel | withinDeadband | appended | coalesced
  deriving DecidableEq, Repr

/-- A programme's gain state (chapter 6, state table). -/
structure Gain where
  /-- Gain schedule queue, head first. -/
  queue : List GainEntry
  /-- G_tgt. -/
  tgt : Int
  /-- G_app. -/
  app : Int
  /-- Ramp count. -/
  ramp : Nat
  /-- Last decision: its outcome. -/
  decision : Decision
  /-- Last decision: G_new, when one was formed. -/
  gNew : Option Int
  /-- Reason set: bit r for rule r. -/
  reasons : BitVec 32
  /-- Reason set: the flag COMMAND. -/
  command : Bool
  /-- Mute fader f. -/
  fader : Nat
  /-- The model's mark: this frame's queue service (R103) and ramp count (R105) have not been taken. -/
  serviceDue : Bool
  /-- The model's mark: the ramp count has reached I in this frame and the ramp step has not been taken. -/
  stepDue : Bool
  /-- The model's mark: the trim of the record as this frame began (R107, R114). -/
  frameTrim : Int
  /-- The model's mark: the G_app that enters the gain of this frame (R105, R107). -/
  frameApp : Int
  deriving DecidableEq, Repr

/-- A fresh gain state (R115). -/
def freshGain : Gain :=
  { queue := [], tgt := 0, app := 0, ramp := 0, decision := .noLevel, gNew := none, reasons := 0#32, command := false,
    fader := 64, serviceDue := false, stepDue := false, frameTrim := 0, frameApp := 0 }

/-! ### Alarm engine (chapter 7) -/

/-- Rule state (section 7.3). -/
inductive RuleState where
  | quiet | onset | active | easing | held
  deriving DecidableEq, Repr

/-- State of one rule (chapter 7, state table). -/
structure Rule where
  state : RuleState
  timer : Nat
  ack : Bool
  /-- Muted set: bit p for programme p. -/
  muted : BitVec 8
  /-- Switched set: bit c for channel c. -/
  switched : BitVec 32
  deriving DecidableEq, Repr

/-- A rule at hardware reset (R139). -/
def quietRule : Rule := { state := .quiet, timer := 0, ack := false, muted := 0#8, switched := 0#32 }

/-- What an evaluation has found for a rule: a raise (R130), a timer that has run out (R128), or the notice of a return from
HELD to ACTIVE that waits for its place in rule order (R128, R136). -/
inductive DueKind where
  | raising | timerOut | returning
  deriving DecidableEq, Repr

/-- The model's mark: a rule whose raise, timer-out or notice of return the boundary's evaluation has found, and which has not
been taken (log entry 12). -/
structure DueRule where
  rule : RuleId
  kind : DueKind
  /-- The value read at the evaluation (R130, R136). -/
  value : Int
  deriving DecidableEq, Repr

/-- The alarm engine. -/
structure Alarm where
  rules : Vector Rule 32
  /-- The model's mark: the raises, timer-outs and notices of return of the latest boundary that have not been taken, in
  ascending rule number. -/
  due : List DueRule
  deriving DecidableEq, Repr

/-- The alarm engine at hardware reset (R139). -/
def resetAlarm : Alarm := { rules := Vector.replicate 32 quietRule, due := [] }

/-! ### Management port (chapter 9) -/

/-- Kind of a message (11.3). -/
inductive MsgKind where
  | command | reply | notice
  deriving DecidableEq, Repr

/-- A message without its check byte. -/
structure Message where
  addr : BitVec 6
  kind : MsgKind
  tag : Byte
  code : Byte
  payload : List Byte
  deriving DecidableEq, Repr

/-- The events that make a notice (R136). -/
inductive NoticeEvent where
  | raised | held | cleared
  deriving DecidableEq, Repr

/-- A notice (R136), with the sequence number that is its tag (R159). -/
structure Notice where
  seq : Byte
  rule : RuleId
  event : NoticeEvent
  severity : Severity
  kind : RuleKind
  subject : Nat
  slice : BitVec 32
  value : Int
  deriving DecidableEq, Repr

/-- The assembler (chapter 9, state table). -/
structure Assembler where
  /-- true in COLLECTING. -/
  collecting : Bool
  buffer : List Byte
  expected : Option Nat
  crc : Byte
  quiet : Nat
  deriving DecidableEq, Repr

/-- The assembler in IDLE with nothing held (R161). After a discard and after a complete message the quiet frame count and the
running CRC read 0 here, where R152 to R154 name only the return to IDLE (DESIGN CHOICE, log entry 34). -/
def idleAssembler : Assembler := { collecting := false, buffer := [], expected := none, crc := 0#8, quiet := 0 }

/-- The message in flight: its bytes and how many have been sent. -/
structure Flight where
  bytes : List Byte
  sent : Nat
  deriving DecidableEq, Repr

/-- A queue that the arbiter serves. -/
inductive Served where
  | relay | reply | notice
  deriving DecidableEq, Repr

/-- The eight error counts (R163). -/
structure ErrorCounts where
  crc : Nat
  header : Nat
  interrupted : Nat
  frameFault : Nat
  timeout : Nat
  linkLoss : Nat
  relayOverflow : Nat
  commandOverflow : Nat
  deriving DecidableEq, Repr

/-- All eight counts at zero. -/
def zeroErrors : ErrorCounts :=
  { crc := 0, header := 0, interrupted := 0, frameFault := 0, timeout := 0, linkLoss := 0, relayOverflow := 0,
    commandOverflow := 0 }

/-- The management port (chapter 9, state table). -/
structure Port where
  /-- UNIT_ADDR. -/
  addr : BitVec 6
  /-- MGMT_LINK. -/
  mlk : LinkId
  assembler : Assembler
  relay : List (List Byte)
  commands : List Message
  replies : List Message
  notices : List Notice
  /-- Notices-lost count (R137). -/
  noticesLost : Nat
  /-- Executor state: the held reply in HOLDING, none in IDLE. -/
  holding : Option Message
  flight : Option Flight
  lastServed : Served
  /-- Notice sequence. -/
  seq : Byte
  errors : ErrorCounts
  /-- Reset record: cause. -/
  cause : ResetCause
  /-- Reset record: mask and HFC of the last domain reset, or none. -/
  domain : Option (Byte × Instant)
  deriving DecidableEq, Repr

/-- The management port at the end of a hardware reset (R150, R161, R164). -/
def resetPort (cause : ResetCause) (addr : BitVec 6) (mlk : LinkId) : Port :=
  { addr := addr, mlk := mlk, assembler := idleAssembler, relay := [], commands := [], replies := [], notices := [],
    noticesLost := 0, holding := none, flight := none, lastServed := .notice, seq := 0#8, errors := zeroErrors,
    cause := cause, domain := none }

/-! ### The house frame in progress -/

/-- The model's marks for the house frame in progress (log entry 2): what was latched as the frame began, and which of the
frame's steps have not been taken. -/
structure Frame where
  /-- The source selected for each channel as the frame began (R22). -/
  selected : Vector (Option Source) 32
  /-- The alarm line states as the frame began, MAJ, MIN and NTC (R135). -/
  maj : Bool
  min : Bool
  ntc : Bool
  /-- The bytes that the arbiter hands to this frame's H0 service slot (R160). -/
  service : List Byte
  /-- The first of them begins a message. -/
  serviceStart : Bool
  /-- The executor found a command or held a reply as the frame began, and has not acted in it (R158). -/
  executorTurn : Bool
  /-- This frame is that of the 104th copy, and the copy has not been made (R148). -/
  copyDue : Bool
  /-- This frame is a message boundary and the arbiter has not looked at the queues (R160). -/
  arbiterTurn : Bool
  /-- This frame is a slice boundary and the boundary's work has not been taken (R3). -/
  boundaryDue : Bool
  deriving DecidableEq, Repr

/-- The first house frame, which begins as the reset ends (R1). -/
def resetFrame : Frame :=
  { selected := Vector.replicate 32 none, maj := false, min := false, ntc := false, service := [],
    serviceStart := false, executorTurn := false, copyDue := false, arbiterTurn := true, boundaryDue := false }

end Sys2Proof.Machine
end

