-- ==== Sys2Proof/Machine/State.lean ====
section
/-! DEFINITION. The state of the part, the reasons a step can stop, and the state after hardware reset. -/

namespace Sys2Proof.Machine

/-- Why a step stops with a fault. -/
inductive Fault where
  /-- Raised by HOUSE FRAME alone, when a region of the active bank reaches beyond the delay store's 1,048,576 words
  (section 4.1), so that an access would name a word that does not exist. No bank that R57 accepts holds such a region.
  Safe: the machine stops where the hardware cannot be (log entry 17). -/
  | outsideStore
  deriving DecidableEq, Repr

/-- Why a step is refused. -/
inductive Refusal where
  /-- Raised by exec's arm for a command that has no meaning yet; no arm does. Safe. -/
  | notModelled (mnemonic : String)
  deriving DecidableEq, Repr

/-- The state of the part: the state tables of chapters 1 to 9, the frame last sent on each house link, the house frame in
progress, the counter that picks free values, and the queue of commands that are waiting. -/
structure State where
  tb : Timebase
  rx : Vector Receiver 4
  cv : Vector Conv 4
  tables : Tables
  /-- Source state of each channel. -/
  sources : Vector SourceState 32
  lines : Vector Line 32
  /-- The delay store: word w of page p is cell p × 1,024 + w; an unlisted cell reads as 0 (log entry 7). -/
  store : Cells Sample
  meas : Vector Meas 32
  /-- The ten weighting coefficients in use (R79). -/
  weights : Vector Int 10
  loud : Vector Loud 8
  gain : Vector Gain 8
  alarm : Alarm
  port : Port
  frame : Frame
  /-- The last link frame formed on H0. -/
  h0 : LinkFrame
  /-- The last link frame formed on H1. -/
  h1 : LinkFrame
  /-- The model's own counter: which free value comes next. -/
  free : Nat
  /-- The commands that are waiting, first in, first out. -/
  pending : List Instr
  deriving DecidableEq, Repr

/-- A link frame with every slot zero and invalid and no service bytes (R29, R184). -/
def silentFrame : LinkFrame :=
  { align := alignmentWord, slots := List.replicate 16 { sample := 0#24, valid := false }, start := false,
    present0 := false, byte0 := 0#8, present1 := false, byte1 := 0#8, maj := false, min := false, ntc := false,
    parity := false }

/-- The part as a hardware reset ends, with the straps it latched; the delay store's words, the counter of free values and
the waiting commands are what the reset finds (R77: the store's contents are not cleared). -/
def resetState (cause : ResetCause) (rate96 : Bool) (addr : BitVec 6) (mlk : LinkId)
    (store : Cells Sample) (free : Nat) (pending : List Instr) : State :=
  { tb := resetTimebase rate96, rx := Vector.replicate 4 resetReceiver, cv := Vector.replicate 4 resetConv,
    tables := resetTables, sources := Vector.replicate 32 .primary, lines := Vector.replicate 32 resetLine,
    store := store, meas := Vector.replicate 32 resetMeas, weights := passThrough,
    loud := Vector.replicate 8 clearedLoud, gain := Vector.replicate 8 freshGain, alarm := resetAlarm,
    port := resetPort cause addr mlk, frame := resetFrame, h0 := silentFrame, h1 := silentFrame,
    free := free, pending := pending }

/-- The state right after reset: power on, the straps low (48 kHz, address 0, Link A; log entry 5), nothing in the delay
store, no command waiting. -/
def State.reset : State := resetState .powerOn false 0#6 0 [] 0 []

end Sys2Proof.Machine
end

