-- ==== Sys2Proof/Machine/Ops.lean ====
section
/-! DEFINITION. The named operations over the state that every block uses: one item of a block replaced, the two banks,
a channel's source and programme. -/

namespace Sys2Proof.Machine

/-! ### One item replaced -/

def State.setRx (s : State) (l : LinkId) (x : Receiver) : State := { s with rx := s.rx.set l.val x }
def State.setCv (s : State) (l : LinkId) (x : Conv) : State := { s with cv := s.cv.set l.val x }
def State.setSource (s : State) (c : ChannelId) (x : SourceState) : State := { s with sources := s.sources.set c.val x }
def State.setLine (s : State) (c : ChannelId) (x : Line) : State := { s with lines := s.lines.set c.val x }
def State.setMeas (s : State) (c : ChannelId) (x : Meas) : State := { s with meas := s.meas.set c.val x }
def State.setLoud (s : State) (p : ProgId) (x : Loud) : State := { s with loud := s.loud.set p.val x }
def State.setGain (s : State) (p : ProgId) (x : Gain) : State := { s with gain := s.gain.set p.val x }
def State.setRule (s : State) (r : RuleId) (x : Rule) : State :=
  { s with alarm := { s.alarm with rules := s.alarm.rules.set r.val x } }
def State.setTb (s : State) (x : Timebase) : State := { s with tb := x }
def State.setTables (s : State) (x : Tables) : State := { s with tables := x }
def State.setPort (s : State) (x : Port) : State := { s with port := x }
def State.setFrame (s : State) (x : Frame) : State := { s with frame := x }
def State.setAlarm (s : State) (x : Alarm) : State := { s with alarm := x }
/-- One free value has been taken. -/
def State.tookFree (s : State) : State := { s with free := s.free + 1 }

/-! ### The banks (R140) -/

/-- The active bank. -/
def activeBank (t : Tables) : Routing := if t.marker then t.bank1 else t.bank0

/-- The standby bank. -/
def standbyBank (t : Tables) : Routing := if t.marker then t.bank0 else t.bank1

/-- Replace the active bank. -/
def setActiveBank (t : Tables) (b : Routing) : Tables := if t.marker then { t with bank1 := b } else { t with bank0 := b }

/-- Replace the standby bank. -/
def setStandbyBank (t : Tables) (b : Routing) : Tables := if t.marker then { t with bank0 := b } else { t with bank1 := b }

/-- The active bank of the state. -/
def State.active (s : State) : Routing := activeBank s.tables

/-- The active record of a programme: none when it is absent. -/
def State.record (s : State) (p : ProgId) : Option ProgRecord := s.active.programmes[p]

/-- The programme is present in the active bank. -/
def State.present (s : State) (p : ProgId) : Bool := (s.record p).isSome

/-- The record lists the channel as a member. -/
def ProgRecord.lists (r : ProgRecord) (c : ChannelId) : Bool := r.members.any fun m => m.channel == c

/-- The present programme of a bank that lists the channel as a member (in the active bank there is one at most, R144). -/
def programmeOf (b : Routing) (c : ChannelId) : Option ProgId :=
  allProgs.find? fun p => match b.programmes[p] with
    | some r => r.lists c
    | none => false

/-! ### Sources (section 2.5) -/

/-- The selected source of a channel: the primary in PRIMARY, the backup otherwise. -/
def selectedSource (e : SlotEntry) (x : SourceState) : Option Source :=
  match x with
  | .primary => e.primary
  | .backup => e.backup
  | .pending => e.backup

/-- The selected source of a channel of the state. -/
def State.selectedOf (s : State) (c : ChannelId) : Option Source :=
  selectedSource s.active.slotMap[c] s.sources[c]

/-- The selected source of the channel lies on the link. -/
def State.selectsLink (s : State) (c : ChannelId) (l : LinkId) : Bool :=
  match s.selectedOf c with
  | some src => src.link == l
  | none => false

/-- A channel's converter latency: the L_c of the link of its selected source, 0 when that is NONE (R23). -/
def State.latencyOf (s : State) (c : ChannelId) : Nat :=
  match s.selectedOf c with
  | some src => s.cv[src.link].lc
  | none => 0

/-- Do one thing for every channel, in ascending number. -/
def forChannels (f : State → ChannelId → State) (s : State) : State := allChannels.foldl f s
/-- Do one thing for every link, in ascending number. -/
def forLinks (f : State → LinkId → State) (s : State) : State := allLinks.foldl f s
/-- Do one thing for every programme, in ascending number. -/
def forProgs (f : State → ProgId → State) (s : State) : State := allProgs.foldl f s
/-- Do one thing for every rule, in ascending number. -/
def forRules (f : State → RuleId → State) (s : State) : State := allRules.foldl f s

end Sys2Proof.Machine
end

