-- ==== Sys2Proof/Machine/Delay.lean ====
section
/-! DEFINITION. Delay store and lip-sync delay (chapter 4): line targets, moves, the line access of a house frame, the
lookahead, and the steps SLEW STEP, CUT JUMP and CUT END. -/

namespace Sys2Proof.Machine

/-- Region length in words (section 4.1): 0 for NONE. -/
def regionLength : Option Region → Nat
  | some r => r.count * 1024
  | none => 0

/-- The active region of a channel. -/
def State.regionOf (s : State) (c : ChannelId) : Option Region := s.active.regions[c]

/-- The active record of the present programme that lists the channel. -/
def State.recordOf (s : State) (c : ChannelId) : Option ProgRecord :=
  match programmeOf s.active c with
  | some p => s.record p
  | none => none

/-- A line target with its two flags. -/
structure LineTarget where
  tgt : Nat
  short : Bool
  clamped : Bool
  deriving DecidableEq, Repr

/-- The table of R61: the target of a channel from its programme's D_t, its converter latency and its region. -/
def targetFor (dt : Option Nat) (latency : Nat) (region : Option Region) : LineTarget :=
  match dt, region with
  | none, _ => { tgt := 0, short := false, clamped := false }
  | some d, none => { tgt := 0, short := d == 0 && decide (0 < latency), clamped := decide (0 < d) }
  | some d, some r =>
    if d < latency then { tgt := 0, short := true, clamped := false }
    else if r.count * 1024 - 1 < d - latency then { tgt := r.count * 1024 - 1, short := false, clamped := true }
    else { tgt := d - latency, short := false, clamped := false }

/-- D_line_tgt and the flags of a channel, from the active bank as it stands (R61). -/
def State.lineTarget (s : State) (c : ChannelId) : LineTarget :=
  targetFor ((s.recordOf c).map (·.dt)) (s.latencyOf c) (s.regionOf c)

/-- Take a new target with its flags. -/
def aimLine (l : Line) (t : LineTarget) : Line := { l with tgt := t.tgt, short := t.short, clamped := t.clamped }

/-- A recompute of class CUT (R62, R63, R67, R68, R70). -/
def cutClass (l : Line) (t : LineTarget) (sourceChange : Bool) : Line :=
  match l.move with
  | .idle =>
    if sourceChange || t.tgt != l.cur then { aimLine l t with move := .cutFall, g := 64, slew := 0, jumpDue := false }
    else aimLine l t
  | .slew => { aimLine l t with move := .cutFall, g := 64, slew := 0, jumpDue := false }
  | .cutFall => aimLine l t
  | .cutRise => { aimLine l t with move := .cutFall, jumpDue := false }

/-- A recompute of class SLEW (R62, R63, R65, R68). A slew that a retarget onto D_line_cur ends leaves the slew count at 0
(DESIGN CHOICE, log entry 32). -/
def slewClass (l : Line) (t : LineTarget) : Line :=
  match l.move with
  | .idle => if t.tgt != l.cur then { aimLine l t with move := .slew, slew := 0 } else aimLine l t
  | .slew => if t.tgt == l.cur then { aimLine l t with move := .idle, slew := 0 } else aimLine l t
  | .cutFall => aimLine l t
  | .cutRise => aimLine l t

/-- Set the line to its target without a move and let it prime again, the access of this frame included (R58, R60, R76). -/
def setLineNow (l : Line) (t : LineTarget) : Line :=
  { aimLine l t with v := 0, cur := t.tgt, move := .idle, slew := 0, g := 64, jumpDue := false, readAt := t.tgt,
                     readAlso := none }

/-- Recompute one channel with class CUT. -/
def State.recomputeCut (s : State) (c : ChannelId) (sourceChange : Bool) : State :=
  s.setLine c (cutClass s.lines[c] (s.lineTarget c) sourceChange)

/-- Recompute one channel with class SLEW. -/
def State.recomputeSlew (s : State) (c : ChannelId) : State :=
  s.setLine c (slewClass s.lines[c] (s.lineTarget c))

/-- Recompute one channel with the class that its programme's move mode gives to a change of D_t (R62). -/
def State.recomputeDelay (s : State) (mode : MoveMode) (c : ChannelId) : State :=
  match mode with
  | .slew => s.recomputeSlew c
  | .cut => s.recomputeCut c false

/-- A converter hands on a new L_c: every channel whose selected source lies on the link is recomputed with class CUT
(R71). -/
def State.recomputeLink (s : State) (l : LinkId) : State :=
  forChannels (fun s c => if s.selectsLink c l then s.recomputeCut c false else s) s

/-- The member counts for its programme's lookahead: it has a region and a selected source (R73). -/
def State.qualifies (s : State) (c : ChannelId) : Bool := (s.regionOf c).isSome && (s.selectedOf c).isSome

/-- A programme's lookahead: the smallest D_line_cur among its qualifying members, 0 when there is none (R73). -/
def State.lookahead (s : State) (p : ProgId) : Nat :=
  match s.record p with
  | none => 0
  | some r => (((r.members.map (·.channel)).filter s.qualifies).map fun c => s.lines[c].cur).min?.getD 0

/-! ### The house frame -/

/-- What a house frame does to a line as it begins: the slew count (R64), the cut fader (R66), and the distance that this
frame's access reads. A slew whose last step has been made is over (R64). -/
def beginLine (l : Line) : Line :=
  let l := { l with readAt := l.cur, readAlso := none }
  match l.move with
  | .idle => l
  | .slew => if l.cur = l.tgt then { l with move := .idle, slew := 0 } else { l with slew := l.slew + 1 }
  | .cutFall => if l.g = 0 then { l with jumpDue := true } else { l with g := l.g - 1 }
  | .cutRise => { l with g := countUp 64 l.g }

/-- A read at offset distance d, primed by R60; `v` is V as R59 has counted it for this frame. -/
def readLine (store : Cells Sample) (r : Region) (wptr v : Nat) (sample : Sample) (d : Nat) : Sample :=
  if d = 0 then sample
  else if v ≤ d then 0#24
  else readCell 0#24 store (r.base * 1024 + (((wptr : Int) - d) % (r.count * 1024 : Nat)).toNat)

/-- The line sample of a frame (R59, R64): the channel sample itself without a region. -/
def lineSample (store : Cells Sample) (region : Option Region) (l : Line) (v : Nat) (sample : Sample) : Sample :=
  match region with
  | none => sample
  | some r =>
    let a := readLine store r l.wptr v sample l.readAt
    match l.readAlso with
    | none => a
    | some d => BitVec.ofInt 24 ((a.toInt + (readLine store r l.wptr v sample d).toInt) / 2)

/-- V after this frame's access has counted the word about to be written (R59). -/
def countedDepth (region : Option Region) (v : Nat) : Nat := if v < regionLength region then v + 1 else v

/-- The line output of a frame: the line sample under the cut fader (R59, R66). -/
def lineOutput (store : Cells Sample) (region : Option Region) (l : Line) (sample : Sample) : Sample :=
  fade (lineSample store region l (countedDepth region l.v) sample) l.g

/-- A line after its access: V counted, the write pointer advanced (R59). -/
def accessLine (region : Option Region) (l : Line) : Line :=
  match region with
  | none => l
  | some r => { l with v := countedDepth region l.v, wptr := (l.wptr + 1) % (r.count * 1024) }

/-- The store after a line's access has written the channel sample (R59). -/
def writeLine (store : Cells Sample) (region : Option Region) (l : Line) (sample : Sample) : Cells Sample :=
  match region with
  | none => store
  | some r => writeCell 0#24 store (r.base * 1024 + l.wptr) sample

/-! ### The steps -/

/-- The slew count has reached or passed S of the channel's programme, in the active record as it stands: in the frame of a
take the new S counts already (R64; DESIGN CHOICE against R72's "from its next frame", log entry 27). -/
def State.slewStepDue (s : State) (c : ChannelId) : Bool :=
  match s.lines[c].move, s.recordOf c with
  | .slew, some r => decide (r.slewInterval ≤ s.lines[c].slew)
  | _, _ => false

/-- One frame toward the target. -/
def stepToward (cur tgt : Nat) : Nat := if cur < tgt then cur + 1 else if tgt < cur then cur - 1 else cur

/-- A line in its step frame (R64): the access reads at the old and at the new distance. -/
def slewStepLine (l : Line) : Line :=
  { l with slew := 0, cur := stepToward l.cur l.tgt, readAt := l.cur, readAlso := some (stepToward l.cur l.tgt) }

/-- SLEW STEP (R64). -/
def State.slewStep (s : State) (c : ChannelId) : State :=
  if s.slewStepDue c then s.setLine c (slewStepLine s.lines[c]) else s

/-- The jump of this frame has not been taken (R66). -/
def cutJumpDue (l : Line) : Bool := l.move == .cutFall && l.jumpDue

/-- A line that makes its jump (R66). -/
def cutJumpLine (l : Line) : Line :=
  { l with cur := l.tgt, move := .cutRise, g := 1, jumpDue := false, readAt := l.tgt, readAlso := none }

/-- CUT JUMP (R66). -/
def State.cutJump (s : State) (c : ChannelId) : State :=
  if cutJumpDue s.lines[c] then s.setLine c (cutJumpLine s.lines[c]) else s

/-- The line is in RISE frame 64 (R69). -/
def cutEndDue (l : Line) : Bool := l.move == .cutRise && l.g == 64

/-- A line whose CUT ends (R69). -/
def cutEndLine (l : Line) : Line :=
  if l.tgt = l.cur then { l with move := .idle } else { l with move := .slew, slew := 0 }

/-- CUT END (R69). -/
def State.cutEnd (s : State) (c : ChannelId) : State :=
  if cutEndDue s.lines[c] then s.setLine c (cutEndLine s.lines[c]) else s

/-- SLEW_STEP. -/
def execSlewStep (c : ChannelId) (s : State) : Host.Outcome State Fault Refusal := .next (s.slewStep c)
/-- CUT_JUMP. -/
def execCutJump (c : ChannelId) (s : State) : Host.Outcome State Fault Refusal := .next (s.cutJump c)
/-- CUT_END. -/
def execCutEnd (c : ChannelId) (s : State) : Host.Outcome State Fault Refusal := .next (s.cutEnd c)

end Sys2Proof.Machine
end

