-- ==== Sys2Proof/Machine/Router.lean ====
section
/-! DEFINITION. The channel router (sections 2.5, R22 to R28): source states, the BACKUP action and its release, pending
reverts. -/

namespace Sys2Proof.Machine

/-- Give a channel a source state; when its selected source changes, its line answers with a CUT (R23, R70). -/
def State.changeSource (s : State) (c : ChannelId) (x : SourceState) : State :=
  let s' := s.setSource c x
  if s'.selectedOf c = s.selectedOf c then s' else s'.recomputeCut c true

/-- Take a channel out of the switched set of every rule that holds it (R27, R28). -/
def State.leaveSwitched (s : State) (c : ChannelId) : State :=
  s.setAlarm { s.alarm with
    rules := s.alarm.rules.map fun r => { r with switched := eraseMember r.switched c } }

/-- The rule whose switched set holds the channel (R173). -/
def State.switchingRule (s : State) (c : ChannelId) : Option RuleId :=
  allRules.find? fun r => hasMember s.alarm.rules[r].switched c

/-- The converter of the link is LOCKED or SPLICING. -/
def State.linkRuns (s : State) (l : LinkId) : Bool :=
  s.cv[l].state == .locked || s.cv[l].state == .splicing

/-- The three conditions of R24 hold for the channel. -/
def State.canSwitch (s : State) (c : ChannelId) : Bool :=
  s.sources[c] == .primary &&
    match s.active.slotMap[c].backup with
    | some src => s.linkRuns src.link
    | none => false

/-- Apply a BACKUP action to a list of channels, and return the set that was switched (R24). -/
def State.applyBackup (s : State) (cs : List ChannelId) : State × BitVec 32 :=
  cs.foldl (fun (acc : State × BitVec 32) c =>
    if acc.1.canSwitch c then (acc.1.changeSource c .backup, insertMember acc.2 c) else acc) (s, 0#32)

/-- Release one channel of a switched set by its revert policy (R25). -/
def State.releaseChannel (s : State) (c : ChannelId) : State :=
  if s.sources[c] = .backup && !s.active.slotMap[c].manual then
    match s.active.slotMap[c].primary with
    | some src => if s.cv[src.link].state = .locked then s.changeSource c .primary else s.changeSource c .pending
    | none => s.changeSource c .pending
  else s

/-- Release a switched set (R25). -/
def State.releaseBackup (s : State) (set : BitVec 32) : State :=
  forChannels (fun s c => if hasMember set c then s.releaseChannel c else s) s

/-- The channel waits for its primary on the link (R26). -/
def State.waitsFor (s : State) (c : ChannelId) (l : LinkId) : Bool :=
  s.sources[c] == .pending &&
    match s.active.slotMap[c].primary with
    | some src => src.link == l
    | none => false

/-- A converter has entered LOCKED: pending reverts on its link are completed (R26). -/
def State.lockReport (s : State) (l : LinkId) : State :=
  forChannels (fun s c => if s.waitsFor c l then s.changeSource c .primary else s) s

/-- RESTORE PRIMARY of one channel (R27). -/
def State.restoreChannel (s : State) (c : ChannelId) : State := (s.changeSource c .primary).leaveSwitched c

/-- The LINKS domain reset's part: every channel to PRIMARY, every switched set empty (R28). -/
def State.resetSources (s : State) : State :=
  let s := s.setAlarm { s.alarm with rules := s.alarm.rules.map fun r => { r with switched := 0#32 } }
  forChannels (fun s c => s.changeSource c .primary) s

end Sys2Proof.Machine
end

