-- ==== Sys2Proof/Machine/Converter.lean ====
section
/-! DEFINITION. The rate converters (chapter 3): ring, states, interpolation, servo, slips, DIRECT mode and latency, and
the steps LEAVE DARK, ACQUISITION END, UNSUPPORTED BLOCK END, DIRECT ACQUISITION END, SERVO UPDATE, SPLICE JUMP and
SPLICE END. -/

namespace Sys2Proof.Machine

/-- Mode of a link (section 3.1). -/
def State.modeOf (s : State) (l : LinkId) : LinkMode := s.tables.linkConfig[l].mode

/-! ### Reading and interpolation -/

/-- x[floor(R) + k] of one slot: entry number modulo 64 of the ring (section 3.2, R38). -/
def ringSample (c : Conv) (slot : SlotId) (k : Int) : Int :=
  (c.ring[(c.rInt + BitVec.ofInt 32 k).toNat % 64]'(Nat.mod_lt _ (by decide)))[slot].toInt

/-- Coefficient c[φ][t] of a set (section 3.9). -/
def coefficient (f : Cells Int) (set : SetId) (φ t : Nat) : Int := readCell 0 f (set.val * 1536 + φ * 24 + t)

/-- One tap's term of the accumulator (R38); with φ at 63 the upper term reads phase 0 on the window advanced by one. -/
def tapTerm (f : Cells Int) (set : SetId) (c : Conv) (slot : SlotId) (φ β t : Nat) : Int :=
  if φ < 63 then
    (coefficient f set φ t * (1024 - β : Int) + coefficient f set (φ + 1) t * β) * ringSample c slot (t - 11 : Int)
  else
    coefficient f set 63 t * (1024 - β : Int) * ringSample c slot (t - 11 : Int) +
      coefficient f set 0 t * β * ringSample c slot (t - 10 : Int)

/-- The interpolated value of one slot (R38). -/
def interpolate (f : Cells Int) (set : SetId) (c : Conv) (slot : SlotId) : Int :=
  let φ := c.rFrac.toNat / 262144
  let β := c.rFrac.toNat / 256 % 1024
  roundDiv ((List.range 24).foldl (fun a t => a + tapTerm f set c slot φ β t) 0) 268435456

/-- The value of a slot before saturation: interpolated in CONVERT (R38), x[floor(R)] in DIRECT (R48). -/
def slotValue (f : Cells Int) (mode : LinkMode) (c : Conv) (slot : SlotId) : Int :=
  match mode, c.filter with
  | .direct, _ => ringSample c slot 0
  | _, some set => interpolate f set c slot
  | _, none => 0

/-- The 16 values of a frame. -/
def slotValues (f : Cells Int) (mode : LinkMode) (c : Conv) : Vector Int 16 := Vector.ofFn fun slot => slotValue f mode c slot

/-- How many of the 16 values are saturated (R39). -/
def saturatedSlots (v : Vector Int 16) : Nat := (v.toList.filter outside24).length

/-- Compute the 16 outputs of the frame from R as it stands, saturated and under the splice fader (R38, R39, R48). In
LOCKED the fader stands at 64. -/
def produce (f : Cells Int) (mode : LinkMode) (c : Conv) : Conv :=
  let v := slotValues f mode c
  { c with last := v.map fun x => fade (saturate24 x) c.g, saturations := countUpBy 65535 (saturatedSlots v) c.saturations }

/-- Advance R by an 8.24 ratio, a carry going into the integer part modulo 2^32 (R37). -/
def advanceBy (c : Conv) (q : Nat) : Conv :=
  let pos := c.rInt.toNat * 16777216 + c.rFrac.toNat + q
  { c with rInt := BitVec.ofNat 32 (pos / 16777216), rFrac := BitVec.ofNat 24 pos }

/-- The advance of a house frame: by Q_applied, or by 1.0 in DIRECT (R37, R43, R48). -/
def advance (mode : LinkMode) (c : Conv) : Conv :=
  match mode with
  | .direct => advanceBy c ratioOne
  | _ => advanceBy c c.qApplied

/-- F = W − floor(R), read as a signed value (R37). -/
def fillOf (c : Conv) : Int := (c.w - c.rInt).toInt

/-- The valid range of the fill (R42, R48). -/
def validFill (mode : LinkMode) (f : Int) : Bool :=
  match mode with
  | .direct => decide (2 ≤ f ∧ f ≤ 12)
  | _ => decide (14 ≤ f ∧ f ≤ 50)

/-- An extreme fill (R44, R48). -/
def extremeFill (mode : LinkMode) (f : Int) : Bool :=
  match mode with
  | .direct => decide (f < 1 ∨ 64 < f)
  | _ => decide (f < 13 ∨ 53 < f)

/-- The fill at which the read position is placed: 32, or 4 in DIRECT (R35, R43, R48). -/
def targetFill (mode : LinkMode) : BitVec 32 :=
  match mode with
  | .direct => 4#32
  | _ => 32#32

/-- Re-place R, and let Q_applied become Q_int (R43, R44). -/
def replaceRead (mode : LinkMode) (c : Conv) : Conv :=
  { c with rInt := c.w - targetFill mode, rFrac := 0#24, qApplied := c.qInt }

/-! ### States -/

/-- Enter DARK (R33); in DARK already, the loss ramp runs on as it was. What a discarded splice or measurement leaves
behind in DARK is the model's choice (DESIGN CHOICE, log entry 35): g, the splice phase and its frame count, the jump-made
mark, the tracking count, R, m, n and the recorded fill keep their values, for R33 and R34 say only 'discarded'. -/
def enterDark (c : Conv) : Conv :=
  if c.state = .dark then c
  else { c with state := .dark, rampStart := c.last, rampCount := 0, filter := none, leaveDue := false, jumpDue := false }

/-- A house frame in DARK: the loss ramp (R33). -/
def darkFrame (c : Conv) : Conv :=
  let k := countUp 64 c.rampCount
  { c with rampCount := k, last := c.rampStart.map fun v => fade v (64 - k) }

/-- A house frame of a measurement (R34, R36): m goes up in CONVERT; the output is zero. In DIRECT m stays at the 0 of the
entry: R48 speaks of n alone (DESIGN CHOICE, log entry 37). -/
def measureFrame (mode : LinkMode) (c : Conv) : Conv :=
  { c with m := if mode = .convert then countUp 1024 c.m else c.m, last := zeroSamples }

/-- The extreme-fill test of a FALL frame, and the jump it makes (R44). -/
def extremeTest (mode : LinkMode) (fill : Int) (c : Conv) : Conv :=
  if !c.jumped && extremeFill mode fill then { replaceRead mode c with jumped := true, g := 0 } else c

/-- A slip starts with the re-acquire window at 0: SPLICING, FALL frame 1 (R42). -/
def startSplice (f : Cells Int) (mode : LinkMode) (fill : Int) (c : Conv) : Conv :=
  produce f mode (extremeTest mode fill
    { c with state := .splicing, splice := .fall, spliceCount := 1, jumped := false, g := 63 })

/-- A second slip: ACQUIRING at once (R46). -/
def secondSlip (slice : BitVec 32) (c : Conv) : Conv :=
  { c with state := .acquiring, m := 0, n := 0, last := zeroSamples, filter := none, slips := countUp 65535 c.slips,
           window := 4096, lastSlip := some slice, leaveDue := false, jumpDue := false }

/-- A house frame in LOCKED (R37, R40, R42, R46). -/
def lockedFrame (f : Cells Int) (mode : LinkMode) (slice : BitVec 32) (c : Conv) : Conv :=
  let c := advance mode c
  let c := { c with fill := fillOf c }
  if validFill mode c.fill then
    let c := produce f mode c
    if mode = .direct then c else { c with track := c.track + 1 }
  else if c.window = 0 then startSplice f mode c.fill c
  else secondSlip slice c

/-- A house frame in SPLICING (R43, R44). The jump of R43 is a step of its own, SPLICE JUMP. The fill that the frame records
for R54 is the one formed after the advance (DESIGN CHOICE, log entry 15). -/
def splicingFrame (f : Cells Int) (mode : LinkMode) (c : Conv) : Conv :=
  match c.splice with
  | .fall =>
    if c.spliceCount < 64 then
      let c := advance mode c
      let c := { c with fill := fillOf c, spliceCount := c.spliceCount + 1,
                        g := if c.jumped then 0 else 64 - (c.spliceCount + 1) }
      produce f mode (extremeTest mode c.fill c)
    else if c.jumped then
      let c := advance mode c
      produce f mode { c with fill := fillOf c, splice := .rise, spliceCount := 1, g := 1 }
    else { c with jumpDue := true }
  | .rise =>
    let c := advance mode c
    let k := countUp 64 c.spliceCount
    produce f mode { c with fill := fillOf c, spliceCount := k, g := k }

/-- What a house frame does to a converter as it begins. The conditions for leaving DARK are tested here (R33), the
re-acquire window goes down in every state (R45). -/
def beginConv (f : Cells Int) (mode : LinkMode) (framed : Bool) (slice : BitVec 32) (c : Conv) : Conv :=
  let c := { c with window := c.window - 1, leaveDue := false, jumpDue := false }
  let c := if mode = .off then enterDark c else c
  match c.state with
  | .dark => { darkFrame c with leaveDue := c.rampCount == 64 && framed && mode != .off }
  | .acquiring => measureFrame mode c
  | .unsupported => measureFrame mode c
  | .locked => lockedFrame f mode slice c
  | .splicing => splicingFrame f mode c

/-! ### Arrivals -/

/-- The measurement in progress counts arrivals: ACQUIRING or UNSUPPORTED, and in CONVERT not yet at its last frame
(R34, R36, R48). -/
def countsArrivals (mode : LinkMode) (c : Conv) : Bool :=
  (c.state == .acquiring || c.state == .unsupported) && (mode == .direct || decide (c.m < 1024))

/-- A frame arrival: written into the ring, counted in W and in the measurement (R32, R34). -/
def arriveConv (mode : LinkMode) (pastEnd : BitVec 16) (x : SixteenSamples) (c : Conv) : Conv :=
  { c with ring := c.ring.set (c.w.toNat % 64) x (Nat.mod_lt _ (by decide)), w := c.w + 1#32,
           n := if countsArrivals mode c then (if c.n < 65535 then c.n + 1 else pastEnd.toNat) else c.n }

/-- The arrival takes the count n past its range, so a free value is used (log entry 9). -/
def arrivalPastEnd (mode : LinkMode) (c : Conv) : Bool := countsArrivals mode c && decide (65535 ≤ c.n)

/-- Deliver a frame arrival to the converter of a link (R15, R32). -/
def State.arrive (s : State) (l : LinkId) (x : SixteenSamples) : State :=
  let s' := s.setCv l (arriveConv (s.modeOf l) (Config.arrivalCountPastEnd s.free) x s.cv[l])
  if arrivalPastEnd (s.modeOf l) s.cv[l] then s'.tookFree else s'

/-- The link has left FRAMED: its converter enters DARK (R33). -/
def State.darken (s : State) (l : LinkId) : State := s.setCv l (enterDark s.cv[l])

/-! ### Lock entries -/

/-- The set that R52 chooses for a measured ratio: the enabled entry with the largest bound not above Q0, else set 0. -/
def chooseSet (sel : Vector (Option SelectEntry) 4) (q0 : Nat) : SetId :=
  match sel.toList.foldl (fun (best : Option SelectEntry) e =>
    match e, best with
    | some x, some b => if x.bound ≤ q0 && decide (b.bound ≤ x.bound) then some x else best
    | some x, none => if x.bound ≤ q0 then some x else none
    | none, _ => best) none with
  | some b => b.set
  | none => 0

/-- L_c on an entry to LOCKED (R49). -/
def latencyFor (mode : LinkMode) (qInt : Nat) : Nat :=
  match mode with
  | .direct => 6
  | _ => (32 * 16777216 + (qInt - 1)) / qInt + 2

/-- The end of every entry to LOCKED: L_c computed and handed on when it differs (R49, R71), then the entry reported to the
router (R26). -/
def State.enterLocked (s : State) (l : LinkId) (c : Conv) : State :=
  let lc := latencyFor (s.modeOf l) c.qInt
  let s' := s.setCv l { c with state := .locked, track := 0, g := 64, lc := lc }
  (if lc = c.lc then s' else s'.recomputeLink l).lockReport l

/-- The ratio is in the supported range (R34). -/
def supported (q : Nat) : Bool := decide (ratioLow ≤ q ∧ q ≤ ratioHigh)

/-- The converter that a measurement in CONVERT locks, with Q0 = n × 16,384 (R34, R35, R52). -/
def lockConvert (sel : Vector (Option SelectEntry) 4) (c : Conv) : Conv :=
  let q := c.n * 16384
  { c with q0 := q, qInt := q, qApplied := q, filter := some (chooseSet sel q), rInt := c.w - 32#32, rFrac := 0#24 }

/-- The end of a measurement in CONVERT: LOCKED in range, else UNSUPPORTED with a new block (R34, R36). -/
def State.endMeasurement (s : State) (l : LinkId) : State :=
  let c := s.cv[l]
  if supported (c.n * 16384) then s.enterLocked l (lockConvert s.tables.setSelect c)
  else s.setCv l { c with state := .unsupported, q0 := c.n * 16384, m := 0, n := 0 }

/-! ### The steps -/

/-- The conditions of R33 for leaving DARK held as the frame began, and still hold. -/
def State.leaveDarkDue (s : State) (l : LinkId) : Bool :=
  s.cv[l].leaveDue && s.cv[l].state == .dark && s.rx[l].state == .framed && s.modeOf l != .off

/-- LEAVE DARK (R33, R34). -/
def State.leaveDark (s : State) (l : LinkId) : State :=
  if s.leaveDarkDue l then s.setCv l { s.cv[l] with state := .acquiring, m := 0, n := 0, leaveDue := false } else s

/-- m has reached 1,024 in ACQUIRING (R34). -/
def State.acquisitionEndDue (s : State) (l : LinkId) : Bool :=
  s.cv[l].state == .acquiring && s.modeOf l == .convert && decide (1024 ≤ s.cv[l].m)

/-- ACQUISITION END (R34). -/
def State.acquisitionEnd (s : State) (l : LinkId) : State := if s.acquisitionEndDue l then s.endMeasurement l else s

/-- A block of 1,024 frames has ended in UNSUPPORTED (R36). -/
def State.unsupportedEndDue (s : State) (l : LinkId) : Bool :=
  s.cv[l].state == .unsupported && decide (1024 ≤ s.cv[l].m)

/-- UNSUPPORTED BLOCK END (R36). -/
def State.unsupportedBlockEnd (s : State) (l : LinkId) : State := if s.unsupportedEndDue l then s.endMeasurement l else s

/-- n has reached 8 in ACQUIRING in DIRECT mode (R48). -/
def State.directEndDue (s : State) (l : LinkId) : Bool :=
  s.cv[l].state == .acquiring && s.modeOf l == .direct && decide (8 ≤ s.cv[l].n)

/-- The converter that DIRECT mode locks (R48). -/
def lockDirect (c : Conv) : Conv :=
  { c with q0 := ratioOne, qInt := ratioOne, qApplied := ratioOne, filter := none, rInt := c.w - 4#32, rFrac := 0#24 }

/-- DIRECT ACQUISITION END (R48). -/
def State.directAcquisitionEnd (s : State) (l : LinkId) : State :=
  if s.directEndDue l then s.enterLocked l (lockDirect s.cv[l]) else s

/-- The lower end of the band of Q_int (R40). -/
def bandLow (q0 : Nat) : Nat := max (q0 - 65536) ratioLow
/-- The upper end of the band of Q_int (R40). -/
def bandHigh (q0 : Nat) : Nat := min (q0 + 65536) ratioHigh

/-- The tracking count has reached 256 (R40). -/
def State.servoDue (s : State) (l : LinkId) : Bool :=
  s.cv[l].state == .locked && s.modeOf l == .convert && decide (256 ≤ s.cv[l].track)

/-- The servo update of a converter with shifts gp and gi (R40); the fill is that of this frame. -/
def servoConv (gp gi : Nat) (c : Conv) : Conv :=
  let e := c.fill - 32
  { c with track := 0,
           qApplied := (clampInt ratioLow ratioHigh (c.qInt + e * 2 ^ (24 - gp))).toNat,
           qInt := (clampInt (bandLow c.q0) (bandHigh c.q0) (c.qInt + e * 2 ^ (24 - gi))).toNat }

/-- SERVO UPDATE (R40). -/
def State.servoUpdate (s : State) (l : LinkId) : State :=
  if s.servoDue l then s.setCv l (servoConv s.tables.linkConfig[l].gp s.tables.linkConfig[l].gi s.cv[l]) else s

/-- The jump of R43 is due in this frame. -/
def State.spliceJumpDue (s : State) (l : LinkId) : Bool := s.cv[l].state == .splicing && s.cv[l].jumpDue

/-- The converter that makes the jump: R re-placed, RISE frame 1, outputs from the new R without a further advance (R43).
The jump-made mark stays clear: R44 alone names its setting (DESIGN CHOICE, log entry 38). -/
def spliceJumpConv (f : Cells Int) (mode : LinkMode) (c : Conv) : Conv :=
  let c := replaceRead mode c
  produce f mode { c with fill := fillOf c, splice := .rise, spliceCount := 1, g := 1, jumpDue := false }

/-- SPLICE JUMP (R43). -/
def State.spliceJump (s : State) (l : LinkId) : State :=
  if s.spliceJumpDue l then s.setCv l (spliceJumpConv s.tables.filters (s.modeOf l) s.cv[l]) else s

/-- RISE frame 64 is in progress (R45). -/
def State.spliceEndDue (s : State) (l : LinkId) : Bool :=
  s.cv[l].state == .splicing && s.cv[l].splice == .rise && s.cv[l].spliceCount == 64

/-- The slip that ends, counted (R45). -/
def countSlip (slice : BitVec 32) (c : Conv) : Conv :=
  { c with slips := countUp 65535 c.slips, window := 4096, lastSlip := some slice }

/-- SPLICE END (R45). -/
def State.spliceEnd (s : State) (l : LinkId) : State :=
  if s.spliceEndDue l then s.enterLocked l (countSlip s.tb.slice s.cv[l]) else s

/-! ### What the converter presents (R41, R53, R54) -/

/-- The RATIO_LIMIT condition (R41). -/
def ratioLimit (mode : LinkMode) (c : Conv) : Bool :=
  (c.state == .locked || c.state == .splicing) && mode == .convert &&
    (c.qInt == bandLow c.q0 || c.qInt == bandHigh c.q0)

/-- The measured rate in Hz (R41, R48). -/
def measuredRate (rate96 : Bool) (mode : LinkMode) (c : Conv) : Nat :=
  if mode == .direct && (c.state == .locked || c.state == .splicing) then houseRate rate96
  else (roundDiv ((c.qInt * houseRate rate96 : Nat) : Int) 16777216).toNat

/-- The fill as READ LINK presents it (R54). -/
def presentedFill (c : Conv) : Int := if c.state = .locked ∨ c.state = .splicing then c.fill else 0

/-- The filter set in use as READ LINK presents it (R54). -/
def presentedFilter (mode : LinkMode) (c : Conv) : Option SetId :=
  if mode ≠ .direct ∧ (c.state = .locked ∨ c.state = .splicing) then c.filter else none

/-- LEAVE_DARK. -/
def execLeaveDark (l : LinkId) (s : State) : Host.Outcome State Fault Refusal := .next (s.leaveDark l)
/-- ACQUISITION_END. -/
def execAcquisitionEnd (l : LinkId) (s : State) : Host.Outcome State Fault Refusal := .next (s.acquisitionEnd l)
/-- UNSUPPORTED_BLOCK_END. -/
def execUnsupportedBlockEnd (l : LinkId) (s : State) : Host.Outcome State Fault Refusal := .next (s.unsupportedBlockEnd l)
/-- DIRECT_ACQUISITION_END. -/
def execDirectAcquisitionEnd (l : LinkId) (s : State) : Host.Outcome State Fault Refusal :=
  .next (s.directAcquisitionEnd l)
/-- SERVO_UPDATE. -/
def execServoUpdate (l : LinkId) (s : State) : Host.Outcome State Fault Refusal := .next (s.servoUpdate l)
/-- SPLICE_JUMP. -/
def execSpliceJump (l : LinkId) (s : State) : Host.Outcome State Fault Refusal := .next (s.spliceJump l)
/-- SPLICE_END. -/
def execSpliceEnd (l : LinkId) (s : State) : Host.Outcome State Fault Refusal := .next (s.spliceEnd l)

end Sys2Proof.Machine
end

