-- ==== Sys2Proof/Machine/Operands.lean ====
section
/-! DEFINITION. The operand forms of the commands and the layouts of their replies (chapter 11): code sets, table records,
and context records. -/

namespace Sys2Proof.Machine

/-! ### Code sets (section 11.3) -/

/-- Status codes (R162, section 11.3). -/
inductive Status where
  | ok | badLength | badCode | badIndex | badValue | inUse | busy | conflict | queueFull | badState
  deriving DecidableEq, Repr

/-- The byte of a status. -/
def statusByte : Status → Byte
  | .ok => 0#8
  | .badLength => 1#8
  | .badCode => 2#8
  | .badIndex => 3#8
  | .badValue => 4#8
  | .inUse => 5#8
  | .busy => 6#8
  | .conflict => 7#8
  | .queueFull => 8#8
  | .badState => 9#8

/-- The code of a receiver state. -/
def rxCode : RxState → Nat
  | .silent => 0
  | .hunting => 1
  | .framed => 2

/-- The code of a converter state. -/
def cvCode : CvState → Nat
  | .dark => 0
  | .acquiring => 1
  | .unsupported => 2
  | .locked => 3
  | .splicing => 4

/-- The code of a link mode. -/
def modeCode : LinkMode → Nat
  | .off => 0
  | .convert => 1
  | .direct => 2

/-- The code of a reference state. -/
def refCode : RefState → Nat
  | .absent => 0
  | .locked => 1
  | .holdover => 2
  | .regain => 3

/-- The code of a source state. -/
def sourceCode : SourceState → Nat
  | .primary => 0
  | .backup => 1
  | .pending => 2

/-- The code of a rule state. -/
def ruleCode : RuleState → Nat
  | .quiet => 0
  | .onset => 1
  | .active => 2
  | .easing => 3
  | .held => 4

/-- The code of a severity. -/
def severityCode : Severity → Nat
  | .notice => 0
  | .minor => 1
  | .major => 2

/-- The code of a rule kind. -/
def kindCode : RuleKind → Nat
  | .silence => 0
  | .overload => 1
  | .outputClip => 2
  | .loudnessHigh => 3
  | .loudnessLow => 4
  | .link => 5
  | .slip => 6
  | .ratioLimit => 7
  | .delay => 8
  | .reference => 9

/-- The code of an action. -/
def actionCode : Action → Nat
  | .none => 0
  | .mute => 1
  | .backup => 2

/-- The code of a bank state. -/
def bankStateCode : BankState → Nat
  | .editing => 0
  | .armed => 1
  | .copying => 2

/-- The code of a move state. -/
def moveCode : Move → Nat
  | .idle => 0
  | .slew => 1
  | .cutFall => 2
  | .cutRise => 3

/-- The code of a last decision. -/
def decisionCode : Decision → Nat
  | .noLevel => 0
  | .withinDeadband => 1
  | .appended => 2
  | .coalesced => 3

/-- The code of a control mode. -/
def controlCode : ControlMode → Nat
  | .integrated => 0
  | .short => 1
  | .off => 2

/-- The code of a move mode. -/
def moveModeCode : MoveMode → Nat
  | .slew => 0
  | .cut => 1

/-- The code of a reset cause. -/
def causeCode : ResetCause → Nat
  | .powerOn => 0
  | .resetPin => 1

/-- A flag as a number. -/
def flag (b : Bool) : Nat := if b then 1 else 0

/-- The none code of a 16-bit level or gain (R183). -/
def noneLevel : Int := -32768
/-- The none code of a notice value (R183). -/
def noneValue : Int := -2147483648

/-! ### Table records (section 11.5) -/

/-- The tables, by their codes 1 to 9. -/
inductive TableName where
  | slotMap | outputMap | programmes | regions | linkConfig | filterSets | setSelect | weighting | alarmRules
  deriving DecidableEq, Repr

/-- The table a code names, or none (R166). -/
def tableOf : Nat → Option TableName
  | 1 => some .slotMap
  | 2 => some .outputMap
  | 3 => some .programmes
  | 4 => some .regions
  | 5 => some .linkConfig
  | 6 => some .filterSets
  | 7 => some .setSelect
  | 8 => some .weighting
  | 9 => some .alarmRules
  | _ => none

/-- How many entries a table has (section 10.2). -/
def tableSize : TableName → Nat
  | .slotMap => 32
  | .outputMap => 32
  | .programmes => 8
  | .regions => 32
  | .linkConfig => 4
  | .filterSets => 6144
  | .setSelect => 4
  | .weighting => 10
  | .alarmRules => 32

/-- The table is banked (R140). -/
def banked : TableName → Bool
  | .slotMap => true
  | .outputMap => true
  | .programmes => true
  | .regions => true
  | _ => false

/-- The record size of a table in bytes; 0 for PROGRAMMES, whose records vary (section 11.5). -/
def recordSize : TableName → Nat
  | .slotMap => 3
  | .outputMap => 1
  | .programmes => 0
  | .regions => 4
  | .linkConfig => 3
  | .filterSets => 3
  | .setSelect => 5
  | .weighting => 3
  | .alarmRules => 11

/-- A record of some table. -/
inductive Record where
  | slotMap (e : SlotEntry)
  | outputMap (o : Option ChannelId)
  | programme (p : Option ProgRecord)
  | region (r : Option Region)
  | linkConfig (c : LinkConfig)
  | filter (v : Int)
  | select (e : Option SelectEntry)
  | weighting (v : Int)
  | alarmRule (r : RuleRecord)
  deriving DecidableEq, Repr

/-- A byte of a run of bytes, 0 past its end. -/
def byteAt (bs : List Byte) (i : Nat) : Nat := (bs.getD i 0#8).toNat

/-- The unsigned field of `k` bytes at an offset (R183). -/
def fieldAt (bs : List Byte) (i k : Nat) : Nat := fromBytes ((bs.drop i).take k)

/-- The signed field of `k` bytes at an offset (R183). -/
def signedAt (bs : List Byte) (i k : Nat) : Int := fromBytesSigned ((bs.drop i).take k)

/-- The value lies in the range. -/
def within (lo hi x : Int) : Bool := decide (lo ≤ x ∧ x ≤ hi)

/-- A source byte: link × 16 + slot, or 255 for NONE; none for a byte that names neither. -/
def readSource (b : Nat) : Option (Option Source) :=
  if b = 255 then some none
  else if b < 64 then some (some { link := Fin.ofNat 4 (b / 16), slot := Fin.ofNat 16 b })
  else none

/-- The byte of a source. -/
def sourceByte : Option Source → Byte
  | none => 255#8
  | some s => BitVec.ofNat 8 (s.link.val * 16 + s.slot.val)

/-- A SLOT_MAP record (R21): a backup needs a primary, and differs from it. -/
def readSlotEntry (bs : List Byte) : Option SlotEntry :=
  match readSource (byteAt bs 0), readSource (byteAt bs 1) with
  | some p, some b =>
    if byteAt bs 2 ≤ 1 ∧ (b = none ∨ (p ≠ none ∧ p ≠ b)) then
      some { primary := p, backup := b, manual := byteAt bs 2 == 1 }
    else none
  | _, _ => none

/-- An OUTPUT_MAP record (R141). -/
def readOutput (bs : List Byte) : Option (Option ChannelId) :=
  if byteAt bs 0 = 255 then some none
  else if h : byteAt bs 0 < 32 then some (some ⟨byteAt bs 0, h⟩)
  else none

/-- A REGIONS record (R57). -/
def readRegion (bs : List Byte) : Option (Option Region) :=
  let base := fieldAt bs 0 2
  let count := fieldAt bs 2 2
  if count = 0 then some none
  else if base ≤ 1023 ∧ count ≤ 1024 ∧ base + count ≤ 1024 then some (some { base := base, count := count })
  else none

/-- A LINK_CONFIG record (R31, section 3.1). -/
def readLinkConfig (bs : List Byte) : Option LinkConfig :=
  let gp := byteAt bs 1
  let gi := byteAt bs 2
  if 8 ≤ gp ∧ gp ≤ 16 ∧ 14 ≤ gi ∧ gi ≤ 22 then
    match byteAt bs 0 with
    | 0 => some { mode := .off, gp := gp, gi := gi }
    | 1 => some { mode := .convert, gp := gp, gi := gi }
    | 2 => some { mode := .direct, gp := gp, gi := gi }
    | _ => none
  else none

/-- A FILTER_SETS record: a coefficient of the 20-bit range (R50). -/
def readFilter (bs : List Byte) : Option Int :=
  let v := signedAt bs 0 3
  if within (-524288) 524287 v then some v else none

/-- A SET_SELECT record (R51). -/
def readSelect (bs : List Byte) : Option (Option SelectEntry) :=
  let bound := fieldAt bs 1 4
  if byteAt bs 0 = 255 then some none
  else if h : byteAt bs 0 < 4 then
    if ratioLow ≤ bound ∧ bound ≤ ratioHigh then some (some { set := ⟨byteAt bs 0, h⟩, bound := bound }) else none
  else none

/-- A WEIGHTING record (R79): every value of the 24-bit field is in range. -/
def readWeighting (bs : List Byte) : Option Int := some (signedAt bs 0 3)

/-- The rule kind a code names. -/
def kindOf : Nat → Option RuleKind
  | 0 => some .silence
  | 1 => some .overload
  | 2 => some .outputClip
  | 3 => some .loudnessHigh
  | 4 => some .loudnessLow
  | 5 => some .link
  | 6 => some .slip
  | 7 => some .ratioLimit
  | 8 => some .delay
  | 9 => some .reference
  | _ => none

/-- The severity a code names. -/
def severityOf : Nat → Option Severity
  | 0 => some .notice
  | 1 => some .minor
  | 2 => some .major
  | _ => none

/-- The action a code names. -/
def actionOf : Nat → Option Action
  | 0 => some .none
  | 1 => some .mute
  | 2 => some .backup
  | _ => none

/-- The largest subject of a kind (section 7.1). -/
def subjectTop : RuleKind → Nat
  | .silence => 31
  | .overload => 31
  | .outputClip => 31
  | .loudnessHigh => 7
  | .loudnessLow => 7
  | .link => 3
  | .slip => 3
  | .ratioLimit => 3
  | .delay => 7
  | .reference => 0

/-- The threshold range of a kind (section 7.1). -/
def thresholdRange : RuleKind → Int × Int
  | .silence => (0, 8388608)
  | .overload => (1, 9600)
  | .outputClip => (1, 9600)
  | .loudnessHigh => (-1400, 440)
  | .loudnessLow => (-1400, 440)
  | .link => (0, 0)
  | .slip => (1, 600)
  | .ratioLimit => (0, 0)
  | .delay => (0, 0)
  | .reference => (0, 0)

/-- An ALARM_RULES record is valid (R120). -/
def ruleValid (r : RuleRecord) : Bool :=
  decide (r.subject ≤ subjectTop r.kind) && within (thresholdRange r.kind).1 (thresholdRange r.kind).2 r.threshold &&
    decide (r.raiseTime ≤ 600) && decide (r.clearTime ≤ 600)

/-- An ALARM_RULES record (R120). -/
def readRule (bs : List Byte) : Option RuleRecord :=
  let flags := byteAt bs 0
  match kindOf (byteAt bs 1), severityOf (flags / 16 % 4), actionOf (flags % 4) with
  | some k, some sev, some act =>
    let r : RuleRecord :=
      { enabled := flags / 128 == 1, kind := k, subject := byteAt bs 2, threshold := signedAt bs 3 4,
        raiseTime := fieldAt bs 7 2, clearTime := fieldAt bs 9 2, severity := sev, latch := flags / 64 % 2 == 1,
        action := act }
    if ruleValid r then some r else none
  | _, _, _ => none

/-- The members of a present PROGRAMMES record; none for a channel outside 0 to 31 or a weight outside 0 to 31. -/
def readMembers : List Byte → Option (List Member)
  | c :: w :: rest =>
    match readMembers rest with
    | some ms =>
      if h : c.toNat < 32 then if w.toNat < 32 then some ({ channel := ⟨c.toNat, h⟩, weight := w.toNat } :: ms) else none
      else none
    | none => none
  | _ => some []

/-- No channel stands twice in the list. -/
def distinctChannels : List Member → Bool
  | [] => true
  | m :: ms => ms.all (fun x => x.channel != m.channel) && distinctChannels ms

/-- A present PROGRAMMES record is valid (R141 and the table of section 8.2). -/
def programmeValid (p : ProgRecord) : Bool :=
  decide (1 ≤ p.members.length) && decide (p.members.length ≤ 8) && p.members.all (fun m => decide (m.weight ≤ 31)) &&
    distinctChannels p.members && within (-400) (-100) p.target && decide (p.strength ≤ 8) && decide (p.deadband ≤ 50) &&
    decide (p.boostMax ≤ 120) && decide (p.cutMax ≤ 240) && decide (1 ≤ p.interval) && decide (p.interval ≤ 4095) &&
    within (-240) 120 p.trim && decide (p.dt ≤ 65535) && decide (16 ≤ p.slewInterval) && decide (p.slewInterval ≤ 4096) &&
    within (-200) 200 p.offset && within (-990) (-200) p.absGate && decide (p.gateDepth ≤ 300)

/-- The control mode a code names. -/
def controlOf : Nat → Option ControlMode
  | 0 => some .integrated
  | 1 => some .short
  | 2 => some .off
  | _ => none

/-- The move mode a code names. -/
def moveModeOf : Nat → Option MoveMode
  | 0 => some .slew
  | 1 => some .cut
  | _ => none

/-- A PROGRAMMES record, cut to its own size (R141). -/
def readProgramme (bs : List Byte) : Option (Option ProgRecord) :=
  if byteAt bs 0 < 128 then some none
  else match readMembers (bs.drop 23), controlOf (byteAt bs 3), moveModeOf (byteAt bs 14) with
    | some ms, some mode, some mv =>
      let p : ProgRecord :=
        { members := ms, target := signedAt bs 1 2, mode := mode, strength := byteAt bs 4, deadband := byteAt bs 5,
          boostMax := byteAt bs 6, cutMax := byteAt bs 7, interval := fieldAt bs 8 2, trim := signedAt bs 10 2,
          dt := fieldAt bs 12 2, moveMode := mv, slewInterval := fieldAt bs 15 2, offset := signedAt bs 17 2,
          absGate := signedAt bs 19 2, gateDepth := fieldAt bs 21 2 }
      if programmeValid p then some (some p) else none
    | _, _, _ => none

/-- A record of a table read from bytes cut to its size: none when a value check of the record fails (step 4 of R165). -/
def readRecord (t : TableName) (bs : List Byte) : Option Record :=
  match t with
  | .slotMap => (readSlotEntry bs).map .slotMap
  | .outputMap => (readOutput bs).map .outputMap
  | .programmes => (readProgramme bs).map .programme
  | .regions => (readRegion bs).map .region
  | .linkConfig => (readLinkConfig bs).map .linkConfig
  | .filterSets => (readFilter bs).map .filter
  | .setSelect => (readSelect bs).map .select
  | .weighting => (readWeighting bs).map .weighting
  | .alarmRules => (readRule bs).map .alarmRule

/-- The bytes of a present PROGRAMMES record (section 11.5). -/
def programmeBytes (p : ProgRecord) : List Byte :=
  beBytes 1 (128 + p.members.length * 8) ++ beSigned 2 p.target ++ beBytes 1 (controlCode p.mode) ++ beBytes 1 p.strength ++
    beBytes 1 p.deadband ++ beBytes 1 p.boostMax ++ beBytes 1 p.cutMax ++ beBytes 2 p.interval ++ beSigned 2 p.trim ++
    beBytes 2 p.dt ++ beBytes 1 (moveModeCode p.moveMode) ++ beBytes 2 p.slewInterval ++ beSigned 2 p.offset ++
    beSigned 2 p.absGate ++ beBytes 2 p.gateDepth ++
    p.members.flatMap fun m => beBytes 1 m.channel.val ++ beBytes 1 m.weight

/-- The bytes of an ALARM_RULES record (section 11.5). -/
def ruleBytes (r : RuleRecord) : List Byte :=
  beBytes 1 (flag r.enabled * 128 + flag r.latch * 64 + severityCode r.severity * 16 + actionCode r.action) ++
    beBytes 1 (kindCode r.kind) ++ beBytes 1 r.subject ++ beSigned 4 r.threshold ++ beBytes 2 r.raiseTime ++
    beBytes 2 r.clearTime

/-- The bytes of a record (section 11.5). -/
def recordBytes : Record → List Byte
  | .slotMap e => [sourceByte e.primary, sourceByte e.backup, BitVec.ofNat 8 (flag e.manual)]
  | .outputMap none => [255#8]
  | .outputMap (some c) => [BitVec.ofNat 8 c.val]
  | .programme none => [0#8]
  | .programme (some p) => programmeBytes p
  | .region none => beBytes 2 0 ++ beBytes 2 0
  | .region (some r) => beBytes 2 r.base ++ beBytes 2 r.count
  | .linkConfig c => [BitVec.ofNat 8 (modeCode c.mode), BitVec.ofNat 8 c.gp, BitVec.ofNat 8 c.gi]
  | .filter v => beSigned 3 v
  | .select none => 255#8 :: beBytes 4 0
  | .select (some e) => BitVec.ofNat 8 e.set.val :: beBytes 4 e.bound
  | .weighting v => beSigned 3 v
  | .alarmRule r => ruleBytes r

/-- The table a record belongs to. -/
def Record.table : Record → TableName
  | .slotMap _ => .slotMap
  | .outputMap _ => .outputMap
  | .programme _ => .programmes
  | .region _ => .regions
  | .linkConfig _ => .linkConfig
  | .filter _ => .filterSets
  | .select _ => .setSelect
  | .weighting _ => .weighting
  | .alarmRule _ => .alarmRules

/-- The record is one that its table accepts: the ranges and conditions of R21, R31, R50, R51, R57, R79, R120 and R141. -/
def Record.valid : Record → Bool
  | .slotMap e => decide (e.backup = none ∨ (e.primary ≠ none ∧ e.primary ≠ e.backup))
  | .outputMap _ => true
  | .programme none => true
  | .programme (some p) => programmeValid p
  | .region none => true
  | .region (some r) => decide (r.base ≤ 1023 ∧ 1 ≤ r.count ∧ r.count ≤ 1024 ∧ r.base + r.count ≤ 1024)
  | .linkConfig c => decide (8 ≤ c.gp ∧ c.gp ≤ 16 ∧ 14 ≤ c.gi ∧ c.gi ≤ 22)
  | .filter v => within (-524288) 524287 v
  | .select none => true
  | .select (some e) => decide (ratioLow ≤ e.bound ∧ e.bound ≤ ratioHigh)
  | .weighting v => within (-8388608) 8388607 v
  | .alarmRule r => ruleValid r

/-- What cutting a payload into records meets. -/
inductive Parsed where
  | records (rs : List (List Byte))
  | badLength
  /-- A present PROGRAMMES record, or context record, whose member count is outside 1 to 8, at this position. -/
  | badCount (position : Nat)
  deriving DecidableEq, Repr

/-- The member count field of the first byte of a PROGRAMMES record or of a context record. -/
def memberCount (b : Byte) : Nat := b.toNat / 8 % 16

/-- The size of a record from its first byte: 0 when a member count outside 1 to 8 leaves it unknown (R166). -/
def sizeFrom (t : TableName) (b : Byte) : Nat :=
  match t with
  | .programmes =>
    if b.toNat < 128 then 1
    else if memberCount b = 0 ∨ 8 < memberCount b then 0
    else 23 + 2 * memberCount b
  | _ => recordSize t

/-- Cut a payload into whole records by a rule that gives each one's size from its first byte; `fuel` is the payload's
length. -/
def cutRecords (size : Byte → Nat) : Nat → Nat → List Byte → Parsed
  | _, _, [] => .records []
  | 0, _, _ :: _ => .badLength
  | fuel + 1, position, b :: rest =>
    if size b = 0 then .badCount position
    else if (b :: rest).length < size b then .badLength
    else match cutRecords size fuel (position + 1) ((b :: rest).drop (size b)) with
      | .records rs => .records ((b :: rest).take (size b) :: rs)
      | other => other

/-- Cut the records of WRITE ENTRIES: at least one is needed (R166). -/
def cutWrite (t : TableName) (bs : List Byte) : Parsed :=
  match cutRecords (sizeFrom t) bs.length 0 bs with
  | .records [] => .badLength
  | other => other

/-- Cut the record of FILL ENTRIES: exactly one is needed (R166). -/
def cutFill (t : TableName) (bs : List Byte) : Parsed :=
  match bs with
  | [] => .badLength
  | b :: _ =>
    if sizeFrom t b = 0 then .badCount 0
    else if bs.length = sizeFrom t b then .records [bs]
    else .badLength

/-! ### Context records (section 11.7, R185) -/

/-- The fields of a present context record. -/
structure Context where
  members : Nat
  sum : Nat
  count : Nat
  /-- Four powers, newest first. -/
  p1 : Nat
  p2 : Nat
  p3 : Nat
  p4 : Nat
  /-- Gain pair. -/
  pair : Nat
  deriving DecidableEq, Repr

/-- The gain pair of two gains (R185). -/
def gainPair (tgt app : Int) : Nat := ((tgt + 240) * 361 + (app + 240)).toNat

/-- The G_tgt of a gain pair, before R116 clamps it (R185). -/
def pairTarget (pair : Nat) : Int := (pair / 361 : Nat) - 240

/-- The 264 bits of a present context record, as 33 bytes (R183, R185). -/
def contextBytes (c : Context) : List Byte :=
  beBytes 33 (2 ^ 263 + c.members * 2 ^ 259 + c.sum * 2 ^ 201 + c.count * 2 ^ 185 + c.p1 * 2 ^ 143 + c.p2 * 2 ^ 101 +
    c.p3 * 2 ^ 59 + c.p4 * 2 ^ 17 + c.pair)

/-- A present context record read from its 33 bytes (R185). -/
def readContext (bs : List Byte) : Context :=
  let n := fromBytes bs
  { members := n / 2 ^ 259 % 2 ^ 4, sum := n / 2 ^ 201 % 2 ^ 58, count := n / 2 ^ 185 % 2 ^ 16,
    p1 := n / 2 ^ 143 % 2 ^ 42, p2 := n / 2 ^ 101 % 2 ^ 42, p3 := n / 2 ^ 59 % 2 ^ 42, p4 := n / 2 ^ 17 % 2 ^ 42,
    pair := n % 2 ^ 17 }

/-- The size of a context record from its first byte: 0 when its member count is outside 1 to 8 (R182). -/
def contextSize (b : Byte) : Nat :=
  if b.toNat < 128 then 1 else 33

/-- The first present context record of a list whose member count lies outside 1 to 8 (R182). -/
def badContext (rs : List (List Byte)) : Bool :=
  rs.any fun r => match r with
    | [] => false
    | b :: _ => decide (128 ≤ b.toNat) && (memberCount b == 0 || decide (8 < memberCount b))

end Sys2Proof.Machine
end

