-- ==== Sys2Proof/Machine/Flags.lean ====
section
/-! DEFINITION. What the part computes as flags: the conditions of the alarm rules (section 7.2), the values their notices
read (R136), and the three alarm lines (R135). -/

namespace Sys2Proof.Machine

/-! ### Subjects -/

/-- The channel, programme or link that a rule's subject number names. -/
def subjectChannel (n : Nat) : ChannelId := Fin.ofNat 32 n
def subjectProg (n : Nat) : ProgId := Fin.ofNat 8 n
def subjectLink (n : Nat) : LinkId := Fin.ofNat 4 n

/-- L_w of the latest window of a programme, with the offset of its active record: none when the programme is absent or has
no window (R88, R93). -/
def State.windowLevel (s : State) (p : ProgId) : Option Int :=
  match s.record p, s.loud[p].window with
  | some r, some w => some (w.raw + r.offset)
  | _, _ => none

/-- DELAY_SHORT or DELAY_CLAMPED holds on the channel (R74). -/
def State.delayFlag (s : State) (c : ChannelId) : Bool := s.lines[c].short || s.lines[c].clamped

/-- On how many members of a programme a delay flag holds; 0 for an absent programme (R136). -/
def State.delayFlags (s : State) (p : ProgId) : Nat :=
  match s.record p with
  | some r => (r.members.filter fun m => s.delayFlag m.channel).length
  | none => 0

/-- SLIP: the last slip ended 1 to `threshold` slices before the slice in progress (R125). -/
def slipRecent (slice : BitVec 32) (last : Option (BitVec 32)) (threshold : Int) : Bool :=
  match last with
  | none => false
  | some k => decide (1 ≤ (slice - k).toNat) && decide (((slice - k).toNat : Int) ≤ threshold)

/-- The condition of a rule holds (R123 to R125). -/
def State.conditionHolds (s : State) (r : RuleRecord) : Bool :=
  match r.kind with
  | .silence =>
    decide ((s.meas[subjectChannel r.subject].latest.peak : Int) < r.threshold) &&
      (s.selectedOf (subjectChannel r.subject)).isSome
  | .overload => decide (r.threshold ≤ (s.meas[subjectChannel r.subject].latest.fsCount : Int))
  | .outputClip => decide (r.threshold ≤ (s.meas[subjectChannel r.subject].latest.outClips : Int))
  | .loudnessHigh =>
    match s.windowLevel (subjectProg r.subject) with
    | some l => decide (r.threshold < l)
    | none => false
  | .loudnessLow =>
    match s.windowLevel (subjectProg r.subject) with
    | some l => decide (l < r.threshold)
    | none => false
  | .link => !s.linkRuns (subjectLink r.subject)
  | .slip => slipRecent s.tb.slice s.cv[subjectLink r.subject].lastSlip r.threshold
  | .ratioLimit => ratioLimit (s.modeOf (subjectLink r.subject)) s.cv[subjectLink r.subject]
  | .delay => decide (0 < s.delayFlags (subjectProg r.subject))
  | .reference => s.tb.ref != .locked

/-- The value that a notice of a rule reads (R136). -/
def State.noticeValue (s : State) (r : RuleRecord) : Int :=
  match r.kind with
  | .silence => s.meas[subjectChannel r.subject].latest.peak
  | .overload => s.meas[subjectChannel r.subject].latest.fsCount
  | .outputClip => s.meas[subjectChannel r.subject].latest.outClips
  | .loudnessHigh => (s.windowLevel (subjectProg r.subject)).getD noneValue
  | .loudnessLow => (s.windowLevel (subjectProg r.subject)).getD noneValue
  | .link => cvCode s.cv[subjectLink r.subject].state
  | .slip => s.cv[subjectLink r.subject].slips
  | .ratioLimit => measuredRate s.tb.rate96 (s.modeOf (subjectLink r.subject)) s.cv[subjectLink r.subject]
  | .delay => s.delayFlags (subjectProg r.subject)
  | .reference => refCode s.tb.ref

/-- A rule is raised while it is ACTIVE, EASING or HELD (section 7.3). -/
def raised (x : RuleState) : Bool :=
  match x with
  | .quiet => false
  | .onset => false
  | .active => true
  | .easing => true
  | .held => true

/-- An alarm line is driven: some enabled rule of its severity is raised (R135). -/
def State.lineDriven (s : State) (sev : Severity) : Bool :=
  allRules.any fun r =>
    s.tables.ruleRecords[r].enabled && s.tables.ruleRecords[r].severity == sev && raised s.alarm.rules[r].state

end Sys2Proof.Machine
end

