-- ==== Sys2Proof/Machine/Timebase.lean ====
section
/-! DEFINITION. The house timebase and the reference monitor (chapter 1): REF PULSE, EXPECTED INSTANT REACHED, ACCEPTANCE
WINDOW CLOSE, PULSES LOST, GOOD COUNT COMPLETE, REFINEMENT BLOCK COMPLETE, and the beginning of a house frame. -/

namespace Sys2Proof.Machine

/-- The instant has been reached (R4). -/
def instantReached (hfc t : Instant) : Bool := (hfc - t).toNat < 2147483648

/-- How many frames ahead of the current one an instant lies (R4). -/
def framesAhead (hfc t : Instant) : Nat := (t - hfc).toNat

/-- N_slice (R1). -/
def Timebase.nSlice (t : Timebase) : Nat := sliceLength t.rate96

/-- An interval of whole ticks is in band against a held period (R5). -/
def inBand (held : Nat) (i : Int) : Bool := decide ((i * 256 - held).natAbs ≤ held / 1000)

/-- The good count test of a pulse (R5). -/
def testPulse (held : Nat) (tick : Nat) (t : Timebase) : Timebase :=
  match t.lastPulse with
  | none => { t with lastPulse := some tick, good := 0 }
  | some last =>
    let i : Int := (tick : Int) - last
    if inBand held i then { t with lastPulse := some tick, good := t.good + 1, goodSum := t.goodSum + i.toNat }
    else { t with lastPulse := some tick, good := 0, goodSum := 0 }

/-- The refinement block takes an accepted pulse (R10). -/
def refine (tick : Nat) (t : Timebase) : Timebase :=
  match t.refineFrom with
  | none => { t with refineFrom := some tick, refineCount := 0, refineSum := 0 }
  | some last =>
    let i : Int := (tick : Int) - last
    if inBand t.held i then
      { t with refineFrom := some tick, refineCount := t.refineCount + 1, refineSum := t.refineSum + i.toNat }
    else { t with refineFrom := some tick, refineCount := 0, refineSum := 0 }

/-- A pulse lies in the acceptance window of E: from E minus half to E plus half the held period, both ends counted
(R8; DESIGN CHOICE, log entry 13). -/
def inWindow (tick : Nat) (t : Timebase) : Bool :=
  decide (2 * t.expected ≤ 512 * tick + t.held) && decide (512 * tick ≤ 2 * t.expected + t.held)

/-- A pulse lies in a window whose pulse has already been accepted, so it is a stray (R8). -/
def inAcceptedWindow (tick : Nat) (t : Timebase) : Bool :=
  match t.acceptedEnd with
  | some e => decide (512 * tick ≤ e)
  | none => false

/-- A pulse is accepted (R8): early, it places the next frame's beginning at its own arrival; late, it begins no frame.
An early pulse takes the place of a boundary that is still outstanding (DESIGN CHOICE, log entry 19). -/
def acceptPulse (tick : Nat) (t : Timebase) : Timebase :=
  let t := refine tick t
  { t with acceptedEnd := some (2 * t.expected + t.held), missing := 0, lastPulse := some tick,
           expected := 256 * tick + t.held, reached := false,
           boundary := if t.reached then t.boundary else some (256 * tick) }

/-- The good count is complete (R6). -/
def goodCountDue (t : Timebase) : Bool := (t.ref == .absent || t.ref == .regain) && decide (256 ≤ t.good)

/-- Enter REF_LOCKED with the good sum as the held period (R6). The boundary already placed stands when the oscillator
reaches it earlier than half a held period before E, and is withdrawn otherwise. -/
def completeGoodCount (t : Timebase) : Timebase :=
  let e := 256 * t.lastPulse.getD 0 + t.goodSum
  { t with ref := .locked, held := t.goodSum, expected := e, reached := false, acceptedEnd := none, missing := 0, good := 0,
           goodSum := 0, refineCount := 0, refineSum := 0, refineFrom := t.lastPulse,
           boundary := t.boundary.filter fun b => decide (2 * b + t.goodSum < 2 * e) }

/-- GOOD COUNT COMPLETE (R6). -/
def goodCountComplete (t : Timebase) : Timebase := if goodCountDue t then completeGoodCount t else t

/-- The refinement block holds 256 intervals (R10). -/
def refinementDue (t : Timebase) : Bool := t.ref == .locked && decide (256 ≤ t.refineCount)

/-- REFINEMENT BLOCK COMPLETE (R10): the held period becomes the sum, and the block starts again with the last pulse. The E
that the completing pulse set stands, and its window is measured with the new held period (DESIGN CHOICE, log entry 24). -/
def refinementComplete (t : Timebase) : Timebase :=
  if refinementDue t then { t with held := t.refineSum, refineCount := 0, refineSum := 0 } else t

/-- The two completions, taken when they are still due (log entry 3). -/
def settleTimebase (t : Timebase) : Timebase := refinementComplete (goodCountComplete t)

/-- REF PULSE (R5, R8, R10, R11). -/
def refPulse (tick : Nat) (t : Timebase) : Timebase :=
  let t := settleTimebase t
  match t.ref with
  | .absent => testPulse (nominalHeld t.rate96) tick t
  | .regain => testPulse t.held tick t
  | .holdover => { t with ref := .regain, lastPulse := some tick, good := 0, goodSum := 0 }
  | .locked => if inWindow tick t && !inAcceptedWindow tick t then acceptPulse tick t else t

/-- E is ahead in REF_LOCKED, no pulse accepted and no frame start outstanding (R8). -/
def expectedDue (t : Timebase) : Bool := t.ref == .locked && !t.reached && t.boundary.isNone

/-- EXPECTED INSTANT REACHED (R8): the next house frame begins at E. -/
def expectedReached (t : Timebase) : Timebase :=
  let t := settleTimebase t
  if expectedDue t then { t with boundary := some t.expected, reached := true } else t

/-- The window can close with no pulse accepted: E has been reached and its frame has begun (R8, R9). -/
def windowCloseDue (t : Timebase) : Bool := t.ref == .locked && t.reached && t.boundary.isNone

/-- Enter REF_HOLDOVER on the fourth missing pulse (R9, R12). The boundary at the last E plus the held period is its whole
ticks, and the part below one tick is the remainder of R2 (DESIGN CHOICE, log entry 25). E keeps its last value through
REF_HOLDOVER and REF_REGAIN: the spec holds an E in REF_LOCKED only (DESIGN CHOICE, log entry 36). -/
def enterHoldover (t : Timebase) : Timebase :=
  let next := t.expected + t.held
  { t with ref := .holdover, lost := true, missing := 0, lastPulse := none, reached := false,
           boundary := some (next - next % 256), remainder := next % 256 }

/-- ACCEPTANCE WINDOW CLOSE (R8, R9). -/
def windowClose (t : Timebase) : Timebase :=
  let t := settleTimebase t
  if windowCloseDue t then
    let t := { t with missing := t.missing + 1, refineCount := 0, refineSum := 0, refineFrom := none }
    if 4 ≤ t.missing then enterHoldover t else { t with expected := t.expected + t.held, reached := false }
  else t

/-- PULSES LOST (R7, R12). -/
def pulsesLost (t : Timebase) : Timebase :=
  let t := settleTimebase t
  match t.ref, t.lastPulse with
  | .absent, some _ => { t with good := 0, goodSum := 0, lastPulse := none }
  | .regain, some _ => { t with good := 0, goodSum := 0, lastPulse := none, ref := .holdover, lost := true }
  | _, _ => t

/-- The slice phase of the next house frame (R3). -/
def nextPhase (t : Timebase) : Nat := if t.phase < t.nSlice - 1 then t.phase + 1 else 0

/-- The timebase as a house frame begins at its placed boundary `b`: counted, and the next boundary placed by R2 outside
REF_LOCKED (R2, R3, R8). The slice index is raised by SLICE BOUNDARY (log entry 16). In REF_LOCKED the remainder stands
(DESIGN CHOICE, log entry 36). -/
def beginFrame (b : Nat) (t : Timebase) : Timebase :=
  let next := b + t.held + t.remainder
  { t with frameStart := b, hfc := t.hfc + 1#32, phase := nextPhase t,
           boundary := if t.ref = .locked then none else some (next - next % 256),
           remainder := if t.ref = .locked then t.remainder else next % 256 }

/-- REF_PULSE. -/
def execRefPulse (tick : Nat) (s : State) : Host.Outcome State Fault Refusal := .next (s.setTb (refPulse tick s.tb))
/-- EXPECTED_INSTANT_REACHED. -/
def execExpectedInstantReached (s : State) : Host.Outcome State Fault Refusal := .next (s.setTb (expectedReached s.tb))
/-- ACCEPTANCE_WINDOW_CLOSE. -/
def execAcceptanceWindowClose (s : State) : Host.Outcome State Fault Refusal := .next (s.setTb (windowClose s.tb))
/-- PULSES_LOST. -/
def execPulsesLost (s : State) : Host.Outcome State Fault Refusal := .next (s.setTb (pulsesLost s.tb))
/-- GOOD_COUNT_COMPLETE. -/
def execGoodCountComplete (s : State) : Host.Outcome State Fault Refusal := .next (s.setTb (goodCountComplete s.tb))
/-- REFINEMENT_BLOCK_COMPLETE. -/
def execRefinementBlockComplete (s : State) : Host.Outcome State Fault Refusal := .next (s.setTb (refinementComplete s.tb))

end Sys2Proof.Machine
end

