-- ==== Sys2Proof/Machine/Loudness.lean ====
section
/-! DEFINITION. Loudness measurement (chapter 5): the weighting filter, the slice records, the log conversion, the window and
the integrator. -/

namespace Sys2Proof.Machine

/-! ### Weighting and slice records (R79 to R85) -/

/-- The output of a weighting stage on an input (R80): the exact sum, rounded, saturated to 26 bits. -/
def stageOutput (b0 b1 b2 a1 a2 : Int) (q : Biquad) (x : Int) : Int :=
  saturate26 (roundDiv (b0 * x + b1 * q.x1 + b2 * q.x2 - a1 * q.y1 - a2 * q.y2) 4194304)

/-- A stage's states moved on (R80). -/
def moveStage (q : Biquad) (x y : Int) : Biquad := { x1 := x, x2 := q.x1, y1 := y, y2 := q.y1 }

/-- The magnitude of a channel sample, −8,388,608 giving 8,388,608 (R82). -/
def magnitude (x : Sample) : Nat := x.toInt.natAbs

/-- A full-scale sample (Conventions, "Samples"). -/
def fullScale (x : Sample) : Bool := x.toInt == -8388608 || x.toInt == 8388607

/-- One channel sample added into a building record, with the weighted sample y (R82). -/
def addSample (b : Building) (x : Sample) (y : Int) : Building :=
  { b with acc := b.acc + y.natAbs ^ 2 / 65536, peak := max b.peak (magnitude x),
           fsCount := if fullScale x then b.fsCount + 1 else b.fsCount }

/-- The measurement tap of one channel in one house frame (R80, R82); `w` holds the coefficients in use. -/
def tapMeas (w : Vector Int 10) (x : Sample) (m : Meas) : Meas :=
  let y1 := stageOutput w[0] w[1] w[2] w[3] w[4] m.stage1 x.toInt
  let y2 := stageOutput w[5] w[6] w[7] w[8] w[9] m.stage2 y1
  { m with stage1 := moveStage m.stage1 x.toInt y1, stage2 := moveStage m.stage2 y1 y2,
           building := addSample m.building x y2 }

/-- A saturated output sample counts in the building record (R83). -/
def countClip (clipped : Bool) (m : Meas) : Meas :=
  if clipped then { m with building := { m.building with outClips := m.building.outClips + 1 } } else m

/-- The building record becomes the latest record at a slice boundary (R84). -/
def rollMeas (nSlice : Nat) (covered : BitVec 32) (m : Meas) : Meas :=
  { m with building := zeroBuilding,
           latest := { acc := m.building.acc, peak := m.building.peak, fsCount := m.building.fsCount,
                       outClips := m.building.outClips, ms := m.building.acc / nSlice, covers := some covered } }

/-- Every channel's record rolled at a slice boundary (R84). -/
def State.rollRecords (s : State) (covered : BitVec 32) : State :=
  forChannels (fun s c => s.setMeas c (rollMeas s.tb.nSlice covered s.meas[c])) s

/-! ### The log conversion (R87) -/

/-- The bit position of the leading one of a power below 2^(k + 1). -/
def leadingOne : Nat → Nat → Nat
  | 0, _ => 0
  | k + 1, p => if 2 ^ (k + 1) ≤ p then k + 1 else leadingOne k p

/-- The five bits below the leading one at position e (R87). -/
def mantissa (p e : Nat) : Nat := if 5 ≤ e then p / 2 ^ (e - 5) % 32 else p * 2 ^ (5 - e) % 32

/-- The raw level of a power, in tenths (R87). -/
def rawLevel (p : Nat) : Int :=
  if p = 0 then -1200
  else
    let e := leadingOne 63 p
    roundDiv ((256 * ((e : Int) - 34) + logTable.getD (mantissa p e) 0) * 30103) 256000

/-! ### Programme power, window and integrator (R86, R89 to R92) -/

/-- The programme power of a member list (R86). -/
def State.programmePower (s : State) (ms : List Member) : Nat :=
  ms.foldl (fun a m => a + m.weight * s.meas[m.channel].latest.ms) 0

/-- A power put at the head of a history of at most four (R89). -/
def pushPower (h : List Nat) (p : Nat) : List Nat := (p :: h).take 4

/-- L_int: none while C is 0 (R92). -/
def integratedLevel (sum count : Nat) (offset : Int) : Option Int :=
  if count = 0 then none else some (rawLevel (sum / count) + offset)

/-- The window is gated in (R90). -/
def gatedIn (raw offset absGate : Int) : Bool := decide (absGate ≤ raw + offset)

/-- A gated-in window passes the relative gate (R91). -/
def passesRelative (raw offset : Int) (depth : Nat) (l : Loud) : Bool :=
  match integratedLevel l.sum l.count offset with
  | none => true
  | some lint => decide (lint - depth ≤ raw + offset)

/-- The integrator after a window power is admitted, halved first when C is 65,535 (R92). -/
def admitPower (w : Nat) (l : Loud) : Loud :=
  if l.count = 65535 then { l with sum := l.sum / 2 + w, count := 32768 }
  else { l with sum := l.sum + w, count := l.count + 1 }

/-- The loudness unit's work of one boundary for a present programme: history, window, gates, admission (R89 to R92). -/
def boundaryLoud (r : ProgRecord) (p : Nat) (l : Loud) : Loud :=
  let h := pushPower l.history p
  if h.length < 4 then { l with history := h, window := none }
  else
    let w := (h.foldl (· + ·) 0) / 4
    let raw := rawLevel w
    let gate := gatedIn raw r.offset r.absGate
    let enters := gate && passesRelative raw r.offset r.gateDepth l
    let l' := if enters then admitPower w l else l
    { l' with history := h, window := some { power := w, raw := raw, gatedIn := gate, admitted := enters } }

/-- RESET INTEGRATOR (R95). -/
def clearIntegrator (l : Loud) : Loud := { l with sum := 0, count := 0 }

/-- The MEASURE domain reset (R98). -/
def State.resetMeasure (s : State) : State :=
  { s with meas := Vector.replicate 32 resetMeas, loud := Vector.replicate 8 clearedLoud }

/-- What a history of fewer than four powers reads in a context record: zeros in the missing places (R96). -/
def historyPower (l : Loud) (i : Nat) : Nat := l.history.getD i 0

end Sys2Proof.Machine
end

