-- ==== Sys2Proof/Machine/GainStage.lean ====
section
/-! DEFINITION. Loudness correction and output gain (chapter 6): the decision, the gain schedule queue, the ramp, the
multiplier, the mute fader, and the steps QUEUE SERVICE and RAMP STEP. -/

namespace Sys2Proof.Machine

/-! ### The decision (R100, R101) -/

/-- The controlling level L_ctl, or none (R100). -/
def controlLevel (r : ProgRecord) (l : Loud) : Option Int :=
  match r.mode with
  | .integrated => integratedLevel l.sum l.count r.offset
  | .short =>
    match l.window with
    | some w => if w.gatedIn then some (w.raw + r.offset) else none
    | none => none
  | .off => none

/-- Clamp a gain to [−cut_max, +boost_max] of a record (R101, R103, R106, R116). -/
def clampGain (r : ProgRecord) (x : Int) : Int := clampInt (-(r.cutMax : Int)) r.boostMax x

/-- G_new (R101). -/
def newGain (r : ProgRecord) (level : Int) : Int := clampGain r (roundDiv ((r.target - level) * r.strength) 8)

/-- The reference value: the tail's target, or G_tgt with an empty queue (R101). -/
def referenceGain (g : Gain) : Int :=
  match g.queue.getLast? with
  | some e => e.target
  | none => g.tgt

/-! ### The queue (R102, R103) -/

/-- The later of two instants: the one that lies more frames ahead of the boundary frame (R102). -/
def laterInstant (hfc a b : Instant) : Instant := if framesAhead hfc a < framesAhead hfc b then b else a

/-- Put G_new into the queue with its candidate due instant (R102). -/
def enqueueGain (hfc candidate : Instant) (x : Int) (g : Gain) : Gain :=
  match g.queue.getLast? with
  | none => { g with queue := [{ due := candidate, target := x }], decision := .appended }
  | some tail =>
    let e : GainEntry := { due := laterInstant hfc candidate tail.due, target := x }
    if g.queue.length < 4 then { g with queue := g.queue ++ [e], decision := .appended }
    else { g with queue := g.queue.dropLast ++ [e], decision := .coalesced }

/-- The decision step of a present programme at a boundary (R100 to R102). -/
def decideGain (r : ProgRecord) (l : Loud) (hfc : Instant) (lookahead : Nat) (g : Gain) : Gain :=
  match controlLevel r l with
  | none => { g with decision := .noLevel, gNew := none }
  | some level =>
    let x := newGain r level
    let g := { g with gNew := some x }
    if (x - referenceGain g).natAbs < r.deadband then { g with decision := .withinDeadband }
    else enqueueGain hfc (hfc + BitVec.ofNat 32 lookahead) x g

/-- Remove the entries whose due instants have been reached; G_tgt ends at the last one's clamped target (R103). -/
def serveEntries (r : ProgRecord) (hfc : Instant) : List GainEntry → Int → List GainEntry × Int
  | [], tgt => ([], tgt)
  | e :: rest, tgt =>
    if instantReached hfc e.due then serveEntries r hfc rest (clampGain r e.target) else (e :: rest, tgt)

/-- The queue served (R103). -/
def serveGain (r : ProgRecord) (hfc : Instant) (g : Gain) : Gain :=
  { g with queue := (serveEntries r hfc g.queue g.tgt).1, tgt := (serveEntries r hfc g.queue g.tgt).2 }

/-! ### The ramp (R105) -/

/-- The ramp count of a frame (R105); a count that reaches or passes I leaves the ramp step to be taken. -/
def countRamp (r : ProgRecord) (g : Gain) : Gain :=
  if g.app = g.tgt then { g with ramp := 0, stepDue := false }
  else { g with ramp := g.ramp + 1, stepDue := decide (r.interval ≤ g.ramp + 1) }

/-- A of a gain and a trim (R107). -/
def appliedGain (app trim : Int) : Int := clampInt (-400) 120 (app + trim)

/-- A of a programme in the house frame in progress (R107). -/
def Gain.applied (g : Gain) : Int := appliedGain g.frameApp g.frameTrim

/-- G_app one tenth toward G_tgt (R105). -/
def towardTarget (app tgt : Int) : Int := if app < tgt then app + 1 else if tgt < app then app - 1 else app

/-- A ramp step (R105): it enters the gain of the frame in which it is made (R107). -/
def rampGain (g : Gain) : Gain :=
  { g with ramp := 0, stepDue := false, app := towardTarget g.app g.tgt, frameApp := towardTarget g.app g.tgt }

/-- This frame's queue service of a present programme has not been taken. -/
def State.serviceTurn (s : State) (p : ProgId) : Bool := s.present p && s.gain[p].serviceDue

/-- QUEUE SERVICE (R103), with the ramp count that follows it (R105). -/
def State.queueService (s : State) (p : ProgId) : State :=
  match s.record p with
  | none => s
  | some r =>
    if s.gain[p].serviceDue then
      s.setGain p (countRamp r (serveGain r s.tb.hfc { s.gain[p] with serviceDue := false }))
    else s

/-- The ramp step of this frame has not been taken. -/
def State.rampTurn (s : State) (p : ProgId) : Bool := s.present p && s.gain[p].stepDue

/-- RAMP STEP (R105). -/
def State.rampStep (s : State) (p : ProgId) : State :=
  if s.rampTurn p then s.setGain p (rampGain s.gain[p]) else s

/-! ### Gain and mute in a house frame (R107 to R111) -/

/-- The multiplier M of A (R108). -/
def multiplier (a : Int) : Nat :=
  (roundDiv ((coarseTable.getD (a / 10 + 40).toNat 0 * fineTable.getD (a % 10).toNat 0 : Nat) : Int) 1048576).toNat

/-- s = round(x × M / 2^22), before saturation (R109). -/
def scaled (x : Sample) (a : Int) : Int := roundDiv (x.toInt * multiplier a) 4194304

/-- The programme is muted: its reason set is non-empty (R110). -/
def mutedGain (g : Gain) : Bool := g.reasons != 0#32 || g.command

/-- The mute fader's move in a frame, by the reason set as the last frame left it (R111). -/
def moveFader (g : Gain) : Gain :=
  { g with fader := if mutedGain g then g.fader - 1 else countUp 64 g.fader }

/-- What a house frame does to a present programme's gain state as it begins: the fader, the trim and the gain of the
frame, and this frame's service to come (R107, R111, R114). -/
def beginGain (r : ProgRecord) (g : Gain) : Gain :=
  { moveFader g with serviceDue := true, stepDue := false, frameTrim := r.trim, frameApp := g.app }

/-- A of a channel's frame: that of its programme, 0 in no present programme (R107). -/
def State.channelGain (s : State) (c : ChannelId) : Int :=
  match programmeOf s.active c with
  | some p => s.gain[p].applied
  | none => 0

/-- The output sample of a channel from its line output (R109). -/
def State.outputSample (s : State) (c : ChannelId) (x : Sample) : Sample :=
  match programmeOf s.active c with
  | some p => fade (saturate24 (scaled x s.gain[p].applied)) s.gain[p].fader
  | none => saturate24 (scaled x 0)

/-- The channel's output is saturated in this frame (R109). -/
def State.outputClips (s : State) (c : ChannelId) (x : Sample) : Bool := outside24 (scaled x (s.channelGain c))

/-! ### Changes from outside (R104, R116, R117) -/

/-- The queue emptied (R104). -/
def emptyQueue (g : Gain) : Gain := { g with queue := [] }

/-- An applied LOAD CONTEXT record's part (R116). -/
def loadGain (r : ProgRecord) (tgt : Int) (g : Gain) : Gain := { g with queue := [], tgt := clampGain r tgt }

/-- The GAIN domain reset of a present programme (R117); the gain of the frame in progress stands. -/
def resetGainOf (g : Gain) : Gain :=
  { g with queue := [], tgt := 0, app := 0, ramp := 0, stepDue := false, decision := .noLevel, gNew := none,
           command := false }

/-- The GAIN domain reset (R117). -/
def State.resetGain (s : State) : State :=
  forProgs (fun s p => if s.present p then s.setGain p (resetGainOf s.gain[p]) else s) s

/-- QUEUE_SERVICE. -/
def execQueueService (p : ProgId) (s : State) : Host.Outcome State Fault Refusal := .next (s.queueService p)
/-- RAMP_STEP. -/
def execRampStep (p : ProgId) (s : State) : Host.Outcome State Fault Refusal := .next (s.rampStep p)

end Sys2Proof.Machine
end

