-- ==== Sys2Proof/Machine/LinkFrames.lean ====
section
/-! DEFINITION. The link frame of section 11.2 as 439 bit cells: laid out, taken apart, its parity, and the outbound frame
of R184. -/

namespace Sys2Proof.Machine

/-- The cells of a field, most significant bit first. -/
def fieldCells {w : Nat} (x : BitVec w) : List Bool := (List.range w).map fun i => x.getMsbD i

/-- The field that cells spell, most significant bit first. -/
def cellsField (w : Nat) (bs : List Bool) : BitVec w :=
  BitVec.ofNat w ((bs.take w).foldl (fun a b => 2 * a + b.toNat) 0)

/-- Cell `i` of a run of cells. -/
def cellAt (bs : List Bool) (i : Nat) : Bool := bs.getD i false

/-- The 25 cells of an audio slot. -/
def slotCells (c : SlotCell) : List Bool := fieldCells c.sample ++ [c.valid]

/-- The service slot: start mark, present marks, bytes, and alarm summary. -/
def serviceCells (f : LinkFrame) : List Bool :=
  [f.start, f.present0] ++ fieldCells f.byte0 ++ [f.present1] ++ fieldCells f.byte1 ++ [f.maj, f.min, f.ntc]

/-- Cells 0 to 437: everything but the parity cell. -/
def coveredCells (f : LinkFrame) : List Bool :=
  fieldCells f.align ++ f.slots.flatMap slotCells ++ serviceCells f

/-- The 439 cells of a link frame, in the order of section 11.2. -/
def frameCells (f : LinkFrame) : List Bool := coveredCells f ++ [f.parity]

/-- The audio slot that starts at a cell. -/
def readSlot (bs : List Bool) : SlotCell := { sample := cellsField 24 bs, valid := cellAt bs 24 }

/-- The link frame that 439 cells carry. -/
def readFrame (bs : List Bool) : LinkFrame :=
  { align := cellsField 16 bs, slots := (List.range 16).map fun i => readSlot (bs.drop (16 + 25 * i)),
    start := cellAt bs 416, present0 := cellAt bs 417, byte0 := cellsField 8 (bs.drop 418), present1 := cellAt bs 426,
    byte1 := cellsField 8 (bs.drop 427), maj := cellAt bs 435, min := cellAt bs 436, ntc := cellAt bs 437,
    parity := cellAt bs 438 }

/-- The count of ones over the cells is odd. -/
def oddOnes (bs : List Bool) : Bool := bs.foldl (fun a b => a != b) false

/-- The parity of a received frame is even over all 439 cells (R15, R184). -/
def evenParity (f : LinkFrame) : Bool := !oddOnes (frameCells f)

/-- Set the parity cell last, over the frame as built (R184). -/
def setParity (f : LinkFrame) : LinkFrame := { f with parity := oddOnes (coveredCells f) }

/-- An outbound frame: slots, up to two service bytes with their present marks, the start mark, the alarm summary
(R30, R184). -/
def buildFrame (slots : List SlotCell) (service : List Byte) (start maj min ntc : Bool) : LinkFrame :=
  setParity
    { align := alignmentWord, slots := slots, start := start && !service.isEmpty, present0 := !service.isEmpty,
      byte0 := service.getD 0 0#8, present1 := decide (2 ≤ service.length), byte1 := service.getD 1 0#8, maj := maj,
      min := min, ntc := ntc, parity := false }

/-- The 16 samples that a good frame delivers: zero for a slot whose valid mark is clear (R15). -/
def deliveredSamples (f : LinkFrame) : SixteenSamples :=
  Vector.ofFn fun i : Fin 16 =>
    match f.slots[i.val]? with
    | some c => if c.valid then c.sample else 0#24
    | none => 0#24

end Sys2Proof.Machine
end

