-- ==== Sys2Proof/Machine/Port.lean ====
section
/-! DEFINITION. The management port (chapter 9): messages, the assembler, routing and the queues, notices, the outbound
arbiter, the executor's turn, and the steps ASSEMBLER TIMEOUT, HELD REPLY PLACED and MESSAGE BOUNDARY. -/

namespace Sys2Proof.Machine

/-! ### Messages (section 9.1, 11.3) -/

/-- The code of a message kind. -/
def msgKindCode : MsgKind → Nat
  | .command => 0
  | .reply => 1
  | .notice => 2

/-- The kind a code names; 3 is the value that no sender uses. -/
def msgKindOf (n : Nat) : MsgKind :=
  if n = 0 then .command else if n = 1 then .reply else .notice

/-- Byte 0 of a message: address in bits 7–2, kind in bits 1–0. -/
def firstByte (addr : BitVec 6) (kind : MsgKind) : Byte := BitVec.ofNat 8 (addr.toNat * 4 + msgKindCode kind)

/-- Bytes 0 to 3 + n of a message: all that its check byte covers. -/
def coveredBytes (m : Message) : List Byte :=
  firstByte m.addr m.kind :: m.tag :: m.code :: BitVec.ofNat 8 m.payload.length :: m.payload

/-- A message with its check byte (R151). -/
def messageBytes (m : Message) : List Byte := coveredBytes m ++ [crc (coveredBytes m)]

/-- The message that complete bytes carry. -/
def readMessage (bs : List Byte) : Message :=
  { addr := BitVec.ofNat 6 (byteAt bs 0 / 4), kind := msgKindOf (byteAt bs 0 % 4), tag := bs.getD 1 0#8,
    code := bs.getD 2 0#8, payload := (bs.drop 4).take (byteAt bs 3) }

/-! ### Error counts (R163) -/

def bumpCrc (e : ErrorCounts) : ErrorCounts := { e with crc := countUp 65535 e.crc }
def bumpHeader (e : ErrorCounts) : ErrorCounts := { e with header := countUp 65535 e.header }
def bumpInterrupted (e : ErrorCounts) : ErrorCounts := { e with interrupted := countUp 65535 e.interrupted }
def bumpFrameFault (e : ErrorCounts) : ErrorCounts := { e with frameFault := countUp 65535 e.frameFault }
def bumpTimeout (e : ErrorCounts) : ErrorCounts := { e with timeout := countUp 65535 e.timeout }
def bumpLinkLoss (e : ErrorCounts) : ErrorCounts := { e with linkLoss := countUp 65535 e.linkLoss }
def bumpRelayOverflow (e : ErrorCounts) : ErrorCounts := { e with relayOverflow := countUp 65535 e.relayOverflow }
def bumpCommandOverflow (e : ErrorCounts) : ErrorCounts := { e with commandOverflow := countUp 65535 e.commandOverflow }

/-! ### Queues (R156, R157, R159) -/

/-- The reply of this unit to a command (R159). -/
def Port.replyTo (p : Port) (m : Message) (payload : List Byte) : Message :=
  { addr := p.addr, kind := .reply, tag := m.tag, code := m.code, payload := payload }

/-- A message joins the relay queue, or is discarded and counted when it holds 8 (R156). -/
def Port.joinRelay (p : Port) (bs : List Byte) : Port :=
  if p.relay.length < 8 then { p with relay := p.relay ++ [bs] } else { p with errors := bumpRelayOverflow p.errors }

/-- A command joins the command queue; a fifth is counted, and a unicast one answered QUEUE_FULL when the reply queue has
room (R157). -/
def Port.joinCommand (p : Port) (m : Message) : Port :=
  if p.commands.length < 4 then { p with commands := p.commands ++ [m] }
  else
    { p with errors := bumpCommandOverflow p.errors,
             replies := if m.addr ≠ 63#6 ∧ p.replies.length < 8 then p.replies ++ [p.replyTo m [statusByte .queueFull]]
                        else p.replies }

/-- A complete message whose check passes is routed by its address and kind (R155). -/
def Port.route (p : Port) (bs : List Byte) : Port :=
  let m := readMessage bs
  if m.kind = .command ∧ m.addr = 63#6 then (p.joinCommand m).joinRelay bs
  else if m.kind = .command ∧ m.addr = p.addr then p.joinCommand m
  else p.joinRelay bs

/-! ### The assembler (section 9.2) -/

/-- A byte with the start mark begins a message; the fourth kind value discards it at once (R152). -/
def Port.beginMessage (p : Port) (b : Byte) : Port :=
  if b.toNat % 4 = 3 then { p with assembler := idleAssembler, errors := bumpHeader p.errors }
  else { p with assembler := { collecting := true, buffer := [b], expected := none, crc := crcByte 0#8 b, quiet := 0 } }

/-- The assembler holds the expected length: the message is checked, and routed or counted (R153). -/
def Port.completeMessage (p : Port) (a : Assembler) : Port :=
  if a.crc = 0#8 then ({ p with assembler := idleAssembler }).route a.buffer
  else { p with assembler := idleAssembler, errors := bumpCrc p.errors }

/-- The assembler with one more byte; byte 3 gives the expected length (R153). -/
def growAssembler (a : Assembler) (b : Byte) : Assembler :=
  { a with buffer := a.buffer ++ [b], crc := crcByte a.crc b, quiet := 0,
           expected := if a.buffer.length = 3 then some (b.toNat + 5) else a.expected }

/-- A byte without a start mark (R152, R153). -/
def Port.addByte (p : Port) (b : Byte) : Port :=
  if !p.assembler.collecting then p
  else if p.assembler.buffer.length = 3 ∧ 248 < b.toNat then
    { p with assembler := idleAssembler, errors := bumpHeader p.errors }
  else
    let a := growAssembler p.assembler b
    if a.expected = some a.buffer.length then p.completeMessage a else { p with assembler := a }

/-- A byte with its start mark (R152, R154): in COLLECTING it interrupts the message in progress. -/
def Port.takeByte (p : Port) (b : Byte) (start : Bool) : Port :=
  if start then
    if p.assembler.collecting then { p with errors := bumpInterrupted p.errors }.beginMessage b else p.beginMessage b
  else p.addByte b

/-- A frame report (R18): a good frame's present bytes with their start marks, a faulted frame, or left FRAMED. -/
inductive Report where
  | good (bytes : List (Byte × Bool))
  | faulted
  | leftFramed
  deriving DecidableEq, Repr

/-- The quiet frame count has reached 64 (R154). -/
def timeoutDue (p : Port) : Bool := p.assembler.collecting && decide (64 ≤ p.assembler.quiet)

/-- ASSEMBLER TIMEOUT (R154). -/
def Port.assemblerTimeout (p : Port) : Port :=
  if timeoutDue p then { p with assembler := idleAssembler, errors := bumpTimeout p.errors } else p

/-- One report at the assembler (R152 to R154). A timeout that is still due is taken first (log entry 3). -/
def Port.takeReport (p : Port) (r : Report) : Port :=
  let p := p.assemblerTimeout
  match r with
  | .good [] =>
    if p.assembler.collecting then { p with assembler := { p.assembler with quiet := p.assembler.quiet + 1 } } else p
  | .good bytes => bytes.foldl (fun (p : Port) x => p.takeByte x.1 x.2) p
  | .faulted =>
    if p.assembler.collecting then { p with assembler := idleAssembler, errors := bumpFrameFault p.errors } else p
  | .leftFramed =>
    if p.assembler.collecting then { p with assembler := idleAssembler, errors := bumpLinkLoss p.errors } else p

/-- A receiver's report reaches the port when it is the management link's (R18). -/
def State.report (s : State) (l : LinkId) (r : Report) : State :=
  if l = s.port.mlk then s.setPort (s.port.takeReport r) else s

/-! ### Notices (R136, R137) -/

/-- The code of a notice's event. -/
def eventCode : NoticeEvent → Byte
  | .raised => 0x81#8
  | .held => 0x82#8
  | .cleared => 0x83#8

/-- The 12 bytes of a notice payload (section 11.6). -/
def noticePayload (n : Notice) : List Byte :=
  beBytes 1 n.rule.val ++ beBytes 1 (severityCode n.severity) ++ beBytes 1 (kindCode n.kind) ++ beBytes 1 n.subject ++
    beBytes 4 n.slice.toNat ++ beSigned 4 n.value

/-- A notice as a message of the unit (section 9.4). -/
def noticeMessage (addr : BitVec 6) (n : Notice) : Message :=
  { addr := addr, kind := .notice, tag := n.seq, code := eventCode n.event, payload := noticePayload n }

/-- A notice joins the notice queue, or is lost and counted when it holds 16; its sequence number is used either way
(R137, section 9.4). -/
def Port.pushNotice (p : Port) (n : Notice) : Port :=
  if p.notices.length < 16 then { p with notices := p.notices ++ [{ n with seq := p.seq }], seq := p.seq + 1#8 }
  else { p with noticesLost := countUp 255 p.noticesLost, seq := p.seq + 1#8 }

/-- Make a notice of a rule from a record (R136). -/
def State.makeNotice (s : State) (r : RuleId) (rec : RuleRecord) (e : NoticeEvent) (value : Int) : State :=
  s.setPort (s.port.pushNotice
    { seq := s.port.seq, rule := r, event := e, severity := rec.severity, kind := rec.kind, subject := rec.subject,
      slice := s.tb.slice, value := value })

/-! ### The outbound arbiter (R160) -/

/-- The order in which the arbiter looks at the queues after the one last served (R160). -/
def servingOrder : Served → List Served
  | .relay => [.reply, .notice, .relay]
  | .reply => [.notice, .relay, .reply]
  | .notice => [.relay, .reply, .notice]

/-- Take the head of a queue: its bytes, and the port without it. -/
def Port.takeHead (p : Port) (q : Served) : Option (List Byte × Port) :=
  match q with
  | .relay => match p.relay with
    | m :: rest => some (m, { p with relay := rest })
    | [] => none
  | .reply => match p.replies with
    | m :: rest => some (messageBytes m, { p with replies := rest })
    | [] => none
  | .notice => match p.notices with
    | n :: rest => some (messageBytes (noticeMessage p.addr n), { p with notices := rest })
    | [] => none

/-- The first queue of the order that is not empty, its head taken and last served recorded (R160). -/
def Port.serve (p : Port) : List Served → Option (List Byte × Port)
  | [] => none
  | q :: rest => match p.takeHead q with
    | some (bs, p') => some (bs, { p' with lastServed := q })
    | none => p.serve rest

/-- The house frame is a message boundary at which the arbiter has still to look (R160). -/
def State.boundaryTurn (s : State) : Bool := s.frame.arbiterTurn && s.port.flight.isNone

/-- MESSAGE BOUNDARY (R160). -/
def State.messageBoundary (s : State) : State :=
  if s.boundaryTurn then
    match s.port.serve (servingOrder s.port.lastServed) with
    | none => s.setFrame { s.frame with arbiterTurn := false, service := [], serviceStart := false }
    | some (bs, p) =>
      { s with port := { p with flight := some { bytes := bs, sent := min 2 bs.length } },
               frame := { s.frame with arbiterTurn := false, service := bs.take 2, serviceStart := true } }
  else s

/-- What the arbiter does as a house frame begins: the next two bytes of the message in flight, or the last one alone; a
frame without a message in flight is a message boundary (R160). -/
def State.beginArbiter (s : State) : State :=
  match s.port.flight with
  | none => s.setFrame { s.frame with arbiterTurn := true, service := [], serviceStart := false }
  | some f =>
    if f.bytes.length ≤ f.sent then
      { s with port := { s.port with flight := none },
               frame := { s.frame with arbiterTurn := true, service := [], serviceStart := false } }
    else
      { s with port := { s.port with flight := some { f with sent := min (f.sent + 2) f.bytes.length } },
               frame := { s.frame with arbiterTurn := false, service := (f.bytes.drop f.sent).take 2,
                                       serviceStart := false } }

/-! ### The executor (R158) -/

/-- The executor acts on the head of the command queue in this frame (R158). -/
def State.executorReady (s : State) : Bool := s.frame.executorTurn && s.port.holding.isNone

/-- The executor keeps a reply that found the reply queue full, or the reply joins the queue (R158). -/
def Port.placeReply (p : Port) (m : Message) : Port :=
  if p.replies.length < 8 then { p with replies := p.replies ++ [m] } else { p with holding := some m }

/-- The executor's work is done for this frame: the reply to a unicast command is placed (R158, R159). -/
def State.answer (s : State) (m : Message) (payload : List Byte) : State :=
  if m.addr = 63#6 then s else s.setPort (s.port.placeReply (s.port.replyTo m payload))

/-- The state with the head command removed and the executor's turn used (R158). -/
def State.takeCommand (s : State) (rest : List Message) : State :=
  { s with port := { s.port with commands := rest }, frame := { s.frame with executorTurn := false } }

/-- Execute the head command by `f` when the executor is ready and the head's code is one that `f` serves: `f` answers the
new state and the reply payload. -/
def State.execute (s : State) (serves : Byte → Bool) (f : State → List Byte → State × List Byte) : State :=
  match s.port.commands with
  | [] => s
  | m :: rest =>
    if s.executorReady && serves m.code then
      ((f (s.takeCommand rest) m.payload).1).answer m (f (s.takeCommand rest) m.payload).2
    else s

/-- A reply payload of a refusal: the status alone (R165). -/
def refusal (st : Status) : List Byte := [statusByte st]

/-- The payload of a reply on OK: the status and the results. -/
def okReply (results : List Byte) : List Byte := statusByte .ok :: results

/-- A held reply has its turn in this frame (R158). -/
def State.heldTurn (s : State) : Bool := s.frame.executorTurn && s.port.holding.isSome

/-- HELD REPLY PLACED (R158): no new command is taken in this frame, whether or not the reply finds room. -/
def State.heldReplyPlaced (s : State) : State :=
  if s.heldTurn then
    match s.port.holding with
    | none => s
    | some m =>
      { s with frame := { s.frame with executorTurn := false },
               port := if s.port.replies.length < 8 then { s.port with replies := s.port.replies ++ [m], holding := none }
                       else s.port }
  else s

/-- ASSEMBLER_TIMEOUT. -/
def execAssemblerTimeout (s : State) : Host.Outcome State Fault Refusal := .next (s.setPort s.port.assemblerTimeout)
/-- HELD_REPLY_PLACED. -/
def execHeldReplyPlaced (s : State) : Host.Outcome State Fault Refusal := .next s.heldReplyPlaced
/-- MESSAGE_BOUNDARY. -/
def execMessageBoundary (s : State) : Host.Outcome State Fault Refusal := .next s.messageBoundary

end Sys2Proof.Machine
end

