-- ==== Sys2Proof/Machine/Alarms.lean ====
section
/-! DEFINITION. The alarm engine (chapter 7): reason sets and actions, the rule states, the evaluation of a boundary, and the
steps ALARM RAISE and ALARM TIMER OUT. -/

namespace Sys2Proof.Machine

/-! ### Actions (R130 to R133) -/

/-- The rule number joins the reason set of a present programme (R110, R131). -/
def State.addReason (s : State) (r : RuleId) (p : ProgId) : State :=
  if s.present p then s.setGain p { s.gain[p] with reasons := insertMember s.gain[p].reasons r } else s

/-- The rule number leaves the reason set of a present programme (R110, R133). -/
def State.dropReason (s : State) (r : RuleId) (p : ProgId) : State :=
  if s.present p then s.setGain p { s.gain[p] with reasons := eraseMember s.gain[p].reasons r } else s

/-- A member of the programme has its selected source on the link. -/
def State.feeds (s : State) (l : LinkId) (p : ProgId) : Bool :=
  match s.record p with
  | some r => r.members.any fun m => s.selectsLink m.channel l
  | none => false

/-- The programmes that a MUTE action names (R131). -/
def State.namedProgs (s : State) (rec : RuleRecord) : List ProgId :=
  match rec.kind with
  | .silence => (programmeOf s.active (subjectChannel rec.subject)).toList
  | .overload => (programmeOf s.active (subjectChannel rec.subject)).toList
  | .outputClip => (programmeOf s.active (subjectChannel rec.subject)).toList
  | .loudnessHigh => [subjectProg rec.subject].filter s.present
  | .loudnessLow => [subjectProg rec.subject].filter s.present
  | .delay => [subjectProg rec.subject].filter s.present
  | .link => allProgs.filter (s.feeds (subjectLink rec.subject))
  | .slip => allProgs.filter (s.feeds (subjectLink rec.subject))
  | .ratioLimit => allProgs.filter (s.feeds (subjectLink rec.subject))
  | .reference => allProgs.filter s.present

/-- The channels whose primary source lies on a link, in the active bank (R132). -/
def State.primaryOn (s : State) (l : LinkId) (c : ChannelId) : Bool :=
  match s.active.slotMap[c].primary with
  | some src => src.link == l
  | none => false

/-- The members of a present programme. -/
def State.membersOf (s : State) (p : ProgId) : List ChannelId :=
  match s.record p with
  | some r => r.members.map (·.channel)
  | none => []

/-- The channels that a BACKUP action aims at (R132). -/
def State.aimedChannels (s : State) (rec : RuleRecord) : List ChannelId :=
  match rec.kind with
  | .silence => [subjectChannel rec.subject]
  | .overload => [subjectChannel rec.subject]
  | .outputClip => [subjectChannel rec.subject]
  | .loudnessHigh => s.membersOf (subjectProg rec.subject)
  | .loudnessLow => s.membersOf (subjectProg rec.subject)
  | .delay => s.membersOf (subjectProg rec.subject)
  | .link => allChannels.filter (s.primaryOn (subjectLink rec.subject))
  | .slip => allChannels.filter (s.primaryOn (subjectLink rec.subject))
  | .ratioLimit => allChannels.filter (s.primaryOn (subjectLink rec.subject))
  | .reference => allChannels

/-- A set of programmes from a list. -/
def progSet (ps : List ProgId) : BitVec 8 := ps.foldl insertMember 0#8

/-- Apply a rule's action and record its sets (R130 to R132). -/
def State.applyAction (s : State) (r : RuleId) (rec : RuleRecord) : State :=
  match rec.action with
  | .none => s.setRule r { s.alarm.rules[r] with muted := 0#8, switched := 0#32 }
  | .mute =>
    let s' := (s.namedProgs rec).foldl (fun (s : State) p => s.addReason r p) s
    s'.setRule r { s'.alarm.rules[r] with muted := progSet (s.namedProgs rec), switched := 0#32 }
  | .backup =>
    let sw := s.applyBackup (s.aimedChannels rec)
    sw.1.setRule r { sw.1.alarm.rules[r] with muted := 0#8, switched := sw.2 }

/-- Release a rule's actions (R133). -/
def State.releaseAction (s : State) (r : RuleId) : State :=
  let x := s.alarm.rules[r]
  let s := forProgs (fun s p => if hasMember x.muted p then s.dropReason r p else s) s
  let s := s.setRule r { s.alarm.rules[r] with muted := 0#8, switched := 0#32 }
  s.releaseBackup x.switched

/-! ### Rule states (section 7.3) -/

/-- The rule's state, timer and ack flag set. -/
def State.putRule (s : State) (r : RuleId) (st : RuleState) (timer : Nat) (ack : Bool) : State :=
  s.setRule r { s.alarm.rules[r] with state := st, timer := timer, ack := ack }

/-- A raised rule enters QUIET: actions released, CLEARED notice, ack flag cleared (R128, R129, R121). `rec` is the record
the notice carries. -/
def State.clearRule (s : State) (r : RuleId) (rec : RuleRecord) (value : Int) : State :=
  ((s.releaseAction r).putRule r .quiet 0 false).makeNotice r rec .cleared value

/-- Entry to ACTIVE from QUIET or ONSET (R130). -/
def State.raiseRule (s : State) (r : RuleId) (rec : RuleRecord) (value : Int) : State :=
  ((s.putRule r .active 0 false).applyAction r rec).makeNotice r rec .raised value

/-- The outcome of a timer that has run out: HELD, or QUIET with a release (R128). -/
def State.timerOutRule (s : State) (r : RuleId) (rec : RuleRecord) (value : Int) : State :=
  if rec.latch && !s.alarm.rules[r].ack then (s.putRule r .held 0 false).makeNotice r rec .held value
  else s.clearRule r rec value

/-! ### The evaluation of a boundary (R122, R126 to R128) -/

/-- The step of this kind is left due for the rule, with the value that the evaluation reads. -/
def State.leaveDue (s : State) (r : RuleId) (k : DueKind) (value : Int) : State :=
  s.setAlarm { s.alarm with due := s.alarm.due ++ [{ rule := r, kind := k, value := value }] }

/-- Evaluate one enabled rule (R126 to R128); a raise from QUIET or ONSET, a timer that runs out, and the notice of a return
from HELD to ACTIVE are left due. -/
def State.evaluateRule (s : State) (r : RuleId) : State :=
  let entry := s.tables.ruleRecords[r]
  let x := s.alarm.rules[r]
  let value := s.noticeValue entry
  if !entry.enabled then s
  else if s.conditionHolds entry then
    match x.state with
    | .quiet => if entry.raiseTime = 0 then s.leaveDue r .raising value else s.putRule r .onset entry.raiseTime x.ack
    | .onset => if x.timer ≤ 1 then (s.putRule r .onset 0 x.ack).leaveDue r .raising value
                else s.putRule r .onset (x.timer - 1) x.ack
    | .active => s
    | .easing => s.putRule r .active 0 x.ack
    | .held => (s.putRule r .active 0 false).leaveDue r .returning value
  else
    match x.state with
    | .quiet => s
    | .onset => s.putRule r .quiet 0 x.ack
    | .active => if entry.clearTime = 0 then s.leaveDue r .timerOut value else s.putRule r .easing entry.clearTime x.ack
    | .easing => if x.timer ≤ 1 then (s.putRule r .easing 0 x.ack).leaveDue r .timerOut value
                 else s.putRule r .easing (x.timer - 1) x.ack
    | .held => s

/-- Evaluate the 32 rules in ascending number, each on the state as it stands at the boundary (R122). -/
def State.evaluateRules (s : State) : State := forRules State.evaluateRule (s.setAlarm { s.alarm with due := [] })

/-- The outcome of a due rule: a raise (R130), a timer that has run out (R128), or the RAISED notice of a return (R128). -/
def State.takeDue (s : State) (d : DueRule) : State :=
  match d.kind with
  | .returning => s.makeNotice d.rule s.tables.ruleRecords[d.rule] .raised d.value
  | .raising => s.raiseRule d.rule s.tables.ruleRecords[d.rule] d.value
  | .timerOut => s.timerOutRule d.rule s.tables.ruleRecords[d.rule] d.value

/-- Make the notices of return at the head of a list of due rules, and leave the rest due: the notices of one boundary are made
in ascending rule number (R136), so a return waits only for a raise or a timer-out of a lower rule. -/
def State.makeReturns (s : State) : List DueRule → State
  | [] => s.setAlarm { s.alarm with due := [] }
  | d :: rest =>
    match d.kind with
    | .returning => (s.takeDue d).makeReturns rest
    | _ => s.setAlarm { s.alarm with due := d :: rest }

/-- The evaluation of a boundary, with the notices of return that nothing stands before (R122, R136). -/
def State.evaluateBoundary (s : State) : State := s.evaluateRules.makeReturns s.evaluateRules.alarm.due

/-- The step of this kind for this rule, when it is the next in ascending number; the notices of return that waited for it
follow (R136). -/
def State.dueStep (s : State) (r : RuleId) (k : DueKind) : State :=
  match s.alarm.due with
  | [] => s
  | d :: rest => if d.rule = r ∧ d.kind = k then (s.takeDue d).makeReturns rest else s

/-- ALARM RAISE (R130). -/
def State.alarmRaise (s : State) (r : RuleId) : State := s.dueStep r .raising

/-- ALARM TIMER OUT (R128). -/
def State.alarmTimerOut (s : State) (r : RuleId) : State := s.dueStep r .timerOut

/-- Take every raise, timer-out and notice of return that is due, in ascending rule number. -/
def State.settleAlarms (s : State) : State :=
  s.alarm.due.foldl State.takeDue (s.setAlarm { s.alarm with due := [] })

/-- A record written or DISABLE RULE puts a rule into QUIET (R121): `rec` is the record as it stood before, and the notice's
value is read for it, before the rule's own actions are released (DESIGN CHOICE, log entry 29). What the boundary's
evaluation has left due is taken first: the boundary came before the write (log entry 12). -/
def State.quietRecord (s : State) (r : RuleId) (rec : RuleRecord) : State :=
  let s := s.settleAlarms
  if raised s.alarm.rules[r].state then s.clearRule r rec (s.noticeValue rec) else s.putRule r .quiet 0 false

/-! ### The ALARMS domain reset (R138) -/

/-- One rule returned to QUIET without a notice, its actions released; a rule that is not raised holds none (R133, R138). -/
def State.silenceRule (s : State) (r : RuleId) : State := (s.releaseAction r).putRule r .quiet 0 false

/-- The ALARMS domain reset (R138); a raise, a timer-out or a notice of return that is still due is cancelled with the rest
(log entry 12). -/
def State.resetAlarms (s : State) : State :=
  let s := forRules State.silenceRule s
  { s with alarm := { s.alarm with due := [] }, port := { s.port with notices := [] } }

/-- ALARM_RAISE. -/
def execAlarmRaise (r : RuleId) (s : State) : Host.Outcome State Fault Refusal := .next (s.alarmRaise r)
/-- ALARM_TIMER_OUT. -/
def execAlarmTimerOut (r : RuleId) (s : State) : Host.Outcome State Fault Refusal := .next (s.alarmTimerOut r)

end Sys2Proof.Machine
end

