-- ==== Sys2Proof/Machine/Banks.lean ====
section
/-! DEFINITION. Table banks and the take (chapter 8): the pending instant, validation, the swap with the answers of every
block, the copy-back, the live adjusts, and the steps TAKE SWAP and COPY BACK COMPLETE. -/

namespace Sys2Proof.Machine

/-! ### Validation (R144) -/

/-- The present records' members in visiting order: ascending programme, member order. -/
def visitMembers (b : Routing) : List (ProgId × ChannelId) :=
  allProgs.flatMap fun p => match b.programmes[p] with
    | some r => r.members.map fun m => (p, m.channel)
    | none => []

/-- A lower-numbered present record lists the channel. -/
def listedBelow (b : Routing) (p : ProgId) (c : ChannelId) : Bool :=
  allProgs.any fun q => decide (q < p) && match b.programmes[q] with
    | some r => r.lists c
    | none => false

/-- Two regions share a page. -/
def sharePage (a b : Option Region) : Bool :=
  match a, b with
  | some x, some y => decide (x.base < y.base + y.count ∧ y.base < x.base + x.count)
  | _, _ => false

/-- The lowest-numbered entry below `c` that shares a page with it. -/
def overlapped (b : Routing) (c : ChannelId) : Option ChannelId :=
  allChannels.find? fun d => decide (d < c) && sharePage b.regions[c] b.regions[d]

/-- A conflict report: check, table code, entry, second index (R144, R177). -/
structure Conflict where
  check : Nat
  table : Nat
  entry : Nat
  second : Nat
  deriving DecidableEq, Repr

/-- MEMBER_TWICE (R144). -/
def memberTwice (b : Routing) : Option Conflict :=
  ((visitMembers b).find? fun x => listedBelow b x.1 x.2).map fun x =>
    { check := 0, table := 3, entry := x.1.val, second := x.2.val }

/-- REGION_OVERLAP (R144). -/
def regionOverlap (b : Routing) : Option Conflict :=
  allChannels.findSome? fun c => (overlapped b c).map fun d => { check := 1, table := 4, entry := c.val, second := d.val }

/-- MEMBER_UNMAPPED (R144). -/
def memberUnmapped (b : Routing) : Option Conflict :=
  ((visitMembers b).find? fun x => b.slotMap[x.2].primary.isNone).map fun x =>
    { check := 2, table := 1, entry := x.2.val, second := x.1.val }

/-- The first failure of the three checks in their order, or none (R144). -/
def validate (b : Routing) : Option Conflict :=
  ((memberTwice b).or (regionOverlap b)).or (memberUnmapped b)

/-! ### The swap (R146) -/

/-- The same members with the same weights, whatever their order (R94). -/
def sameMembers (a b : List Member) : Bool :=
  a.length == b.length && a.all (fun m => b.contains m) && b.all (fun m => a.contains m)

/-- The tables after the swap itself (R146). -/
def swapTables (t : Tables) : Tables :=
  { t with marker := !t.marker, pendingInstant := none, copyPos := 0, bankState := .copying }

/-- The router's answer for one channel (R28): an entry that changed in any field returns the channel to PRIMARY. -/
def State.swapSource (old : Routing) (s : State) (c : ChannelId) : State :=
  if old.slotMap[c] = s.active.slotMap[c] then s
  else
    let s := (s.setSource c .primary).leaveSwitched c
    s.setFrame { s.frame with selected := s.frame.selected.set c.val (s.selectedOf c) }

/-- Take a programme out of every rule's muted set (R147). -/
def State.leaveMuted (s : State) (p : ProgId) : State :=
  s.setAlarm { s.alarm with rules := s.alarm.rules.map fun r => { r with muted := eraseMember r.muted p } }

/-- The gain state of a programme that stays present, under its new record (R104, R106, R107, R105): a ramp count that has
been made in this frame and that the new I no longer exceeds leaves a ramp step, and a ramp step that the old I has left due
stays due under a longer I (DESIGN CHOICE, log entry 33). -/
def swapGain (old new : ProgRecord) (g : Gain) : Gain :=
  let g := if sameMembers old.members new.members then g else emptyQueue g
  let g := { g with tgt := clampGain new g.tgt, frameTrim := new.trim }
  { g with stepDue := g.stepDue || (!g.serviceDue && g.app != g.tgt && decide (new.interval ≤ g.ramp)) }

/-- The loudness unit's and the gain stage's answers for one programme, and the alarm engine's (R94, R104, R106, R115,
R147). A programme that becomes present has its first queue service and ramp count in the frame after the swap (DESIGN
CHOICE, log entry 28). -/
def State.swapProgramme (old : Routing) (s : State) (p : ProgId) : State :=
  match old.programmes[p], s.record p with
  | none, none => s
  | none, some r =>
    (s.setLoud p clearedLoud).setGain p { freshGain with frameTrim := r.trim }
  | some _, none => ((s.setLoud p clearedLoud).setGain p freshGain).leaveMuted p
  | some o, some r =>
    if o = r then s
    else
      let s := if sameMembers o.members r.members then s else s.setLoud p clearedLoud
      s.setGain p (swapGain o r s.gain[p])

/-- The D_t of the programme that lists the channel, in a bank. -/
def dtOf (b : Routing) (c : ChannelId) : Option Nat :=
  match programmeOf b c with
  | some p => b.programmes[p].map (·.dt)
  | none => none

/-- The move mode of the programme that lists the channel, in a bank. -/
def movesByCut (b : Routing) (c : ChannelId) : Bool :=
  match programmeOf b c with
  | some p => match b.programmes[p] with
    | some r => r.moveMode == .cut
    | none => false
  | none => false

/-- A region assigned to a line (R58). -/
def assignLine (l : Line) (t : LineTarget) : Line :=
  { setLineNow l t with wptr := 0 }

/-- The delay store controller's answer for one channel (R58, R75); `before` is the channel's selected source before the
swap. -/
def State.swapLine (old : Routing) (before : Vector (Option Source) 32) (s : State) (c : ChannelId) : State :=
  let sourceChange := before[c] != s.selectedOf c
  let dtChange := dtOf old c != dtOf s.active c
  if old.regions[c] ≠ s.active.regions[c] then s.setLine c (assignLine s.lines[c] (s.lineTarget c))
  else if sourceChange || programmeOf old c != programmeOf s.active c || (dtChange && movesByCut s.active c) then
    s.recomputeCut c sourceChange
  else if dtChange then s.recomputeSlew c
  else s

/-- An ARMED take whose instant has been reached (R145). -/
def State.swapDue (s : State) : Bool :=
  s.tables.bankState == .armed &&
    match s.tables.pendingInstant with
    | some t => instantReached s.tb.hfc t
    | none => false

/-- The swap with every block's answer (R146, R147). -/
def State.swap (s : State) : State :=
  let old := s.active
  let before : Vector (Option Source) 32 := Vector.ofFn fun c => s.selectedOf c
  let s := s.setTables (swapTables s.tables)
  let s := forChannels (State.swapSource old) s
  let s := forProgs (State.swapProgramme old) s
  forChannels (State.swapLine old before) s

/-- TAKE SWAP (R145, R146). What the boundary's evaluation has left due is taken first: its actions read the bank as it
stood at the boundary (R131, R132; log entry 12). -/
def State.takeSwap (s : State) : State := if s.swapDue then s.settleAlarms.swap else s

/-! ### The copy-back (R148) -/

/-- Copy entry `pos` of a bank into another, in the order of R148. -/
def copyEntry (pos : Nat) (src dst : Routing) : Routing :=
  if h : pos < 32 then { dst with slotMap := dst.slotMap.set pos src.slotMap[pos] }
  else if h : pos - 32 < 32 then { dst with outputMap := dst.outputMap.set (pos - 32) src.outputMap[pos - 32] }
  else if h : pos - 64 < 8 then { dst with programmes := dst.programmes.set (pos - 64) src.programmes[pos - 64] }
  else if h : pos - 72 < 32 then { dst with regions := dst.regions.set (pos - 72) src.regions[pos - 72] }
  else dst

/-- The entry at the copy position copied, and the position raised (R148). -/
def copyNext (t : Tables) : Tables :=
  { setStandbyBank t (copyEntry t.copyPos (activeBank t) (standbyBank t)) with copyPos := t.copyPos + 1 }

/-- The copy of a house frame as it begins; the 104th is made by COPY BACK COMPLETE (R148). -/
def copyBack (t : Tables) : Tables := if t.bankState = .copying ∧ t.copyPos < 103 then copyNext t else t

/-- This frame is that of the 104th copy, and the copy has not been made (R148). -/
def State.copyEndDue (s : State) : Bool :=
  s.frame.copyDue && s.tables.bankState == .copying && s.tables.copyPos == 103

/-- COPY BACK COMPLETE (R148): the 104th entry is copied, the position reaches 104 and the banks are EDITING. The copy
position stays at 104 (DEDUCED, log entry 21). -/
def State.completeCopy (s : State) : State :=
  if s.copyEndDue then
    { s with tables := { copyNext s.tables with bankState := .editing }, frame := { s.frame with copyDue := false } }
  else s

/-! ### The take and the live adjusts (R143, R149) -/

/-- The pending instant of a form, or none for an AT instant out of range (R143). Form 0 is NEXT_FRAME, 1 NEXT_SLICE, 2 AT. -/
def takeInstant (tb : Timebase) (form : Nat) (at_ : Instant) : Option Instant :=
  if form = 0 then some (tb.hfc + 1#32)
  else if form = 1 then some (tb.hfc + BitVec.ofNat 32 (tb.nSlice - tb.phase))
  else if 1 ≤ framesAhead tb.hfc at_ ∧ framesAhead tb.hfc at_ ≤ 16777216 then some at_
  else none

/-- Arm a take (R143). -/
def armTake (i : Instant) (t : Tables) : Tables := { t with bankState := .armed, pendingInstant := some i }

/-- End an ARMED take without a swap (R145). -/
def disarmTake (t : Tables) : Tables := { t with bankState := .editing, pendingInstant := none }

/-- Write a field of a programme's record in a bank in which it is present (R149). -/
def adjustBank (f : ProgRecord → ProgRecord) (p : ProgId) (b : Routing) : Routing :=
  { b with programmes := b.programmes.set p.val (b.programmes[p].map f) }

/-- Write a field of a programme's record in both banks (R149). -/
def adjustTables (f : ProgRecord → ProgRecord) (p : ProgId) (t : Tables) : Tables :=
  { t with bank0 := adjustBank f p t.bank0, bank1 := adjustBank f p t.bank1 }

/-- Which banks a live adjust writes: 1 ACTIVE, 2 STANDBY, 3 both, 0 neither (section 11.6). -/
def banksWritten (t : Tables) (p : ProgId) : Nat :=
  flag (activeBank t).programmes[p].isSome + 2 * flag (standbyBank t).programmes[p].isSome

/-- The delay store controller's answer to SET DELAY: every member recomputed when D_t changes (R72). -/
def State.answerDelay (s : State) (p : ProgId) (before : Option Nat) : State :=
  match s.record p with
  | some r =>
    if before = some r.dt then s
    else r.members.foldl (fun (s : State) m => s.recomputeDelay r.moveMode m.channel) s
  | none => s

/-- TAKE_SWAP. -/
def execTakeSwap (s : State) : Host.Outcome State Fault Refusal := .next s.takeSwap
/-- COPY_BACK_COMPLETE. -/
def execCopyBackComplete (s : State) : Host.Outcome State Fault Refusal := .next s.completeCopy

end Sys2Proof.Machine
end

