-- ==== Sys2Proof/Machine/Receivers.lean ====
section
/-! DEFINITION. The link receivers (section 2.2): LINE TRANSITION, ACTIVITY TIMEOUT, ALIGNMENT WORD FOUND and LINK FRAME. -/

namespace Sys2Proof.Machine

/-- The receiver's link has left FRAMED: its converter and, for the management link, the management port are told (R13,
R16, R20). -/
def State.leftFramed (s : State) (l : LinkId) : State := (s.darken l).report l .leftFramed

/-- One frame length, in bit cells (section 11.2). -/
def frameLength : Nat := 439

/-- The length of the alignment word, in bit cells (section 11.2). -/
def wordLength : Nat := 16

/-- LINE TRANSITION (R13): the line is live, and a SILENT receiver begins to hunt; bit positions are counted from there
(log entry 18). -/
def State.lineTransition (s : State) (l : LinkId) : State :=
  match s.rx[l].state with
  | .silent => s.setRx l { s.rx[l] with state := .hunting, candidates := 0, lookAt := 0, watch := 0 }
  | _ => s.setRx l { s.rx[l] with watch := 0 }

/-- ACTIVITY TIMEOUT (R13): 1,024 ticks have passed with no transition. The candidate count and the bad run keep their last
values in SILENT (DESIGN CHOICE, log entry 26). -/
def State.activityTimeout (s : State) (l : LinkId) : State :=
  let x := s.rx[l]
  let silent : Receiver := { x with state := .silent, watch := 1024 }
  match x.state with
  | .silent => s.setRx l { x with watch := 1024 }
  | .hunting => s.setRx l silent
  | .framed => (s.setRx l silent).leftFramed l

/-- The search with no candidate (R14): a word at any position that it looks at is a candidate frame start. -/
def searchWord (look : WordLook) (x : Receiver) : Receiver :=
  if look.found && decide (x.lookAt ≤ look.pos) then
    { x with candidates := 1, first := look.pos, lookAt := look.pos + frameLength, watch := 0 }
  else x

/-- The look one frame length on from a candidate (R14): the word is there, the third in a row entering FRAMED with the
frame that begins with it; or it is not, the candidate is dropped, and the search resumes at the bit after the candidate's
first word. Any other position is not looked at. -/
def checkWord (look : WordLook) (x : Receiver) : Receiver :=
  if look.pos ≠ x.lookAt then x
  else if !look.found then { x with candidates := 0, lookAt := x.first + wordLength, watch := 0 }
  else if x.candidates < 2 then { x with candidates := x.candidates + 1, lookAt := x.lookAt + frameLength, watch := 0 }
  else { x with state := .framed, candidates := 3, badRun := 0, hold := zeroSamples, watch := 0 }

/-- ALIGNMENT WORD FOUND (R14): in HUNTING the receiver looks for the word at a bit position of its line. (The bits themselves
are not held; log entry 18.) -/
def State.alignmentWordFound (s : State) (l : LinkId) (look : WordLook) : State :=
  match s.rx[l].state with
  | .hunting =>
    if s.rx[l].candidates = 0 then s.setRx l (searchWord look s.rx[l]) else s.setRx l (checkWord look s.rx[l])
  | _ => s

/-- The receiver with one more frame received at its position (R15). -/
def passFrame (x : Receiver) : Receiver := { x with lookAt := x.lookAt + frameLength, watch := 0 }

/-- The bytes of a good frame's report, with their start marks: a start mark counts only on a byte 0 that is present
(R18). -/
def presentBytes (f : LinkFrame) : List (Byte × Bool) :=
  (if f.present0 then [(f.byte0, f.start)] else []) ++ (if f.present1 then [(f.byte1, false)] else [])

/-- A good frame (R15, R18). -/
def State.goodFrame (s : State) (l : LinkId) (f : LinkFrame) : State :=
  ((s.setRx l { passFrame s.rx[l] with badRun := 0, hold := deliveredSamples f }).arrive l (deliveredSamples f)).report l
    (.good (presentBytes f))

/-- A frame with a good alignment word and odd parity (R17). -/
def State.parityFault (s : State) (l : LinkId) : State :=
  let x := s.rx[l]
  ((s.setRx l { passFrame x with badRun := 0, parityErrors := countUp 65535 x.parityErrors }).arrive l x.hold).report l
    .faulted

/-- A frame with a bad alignment word: one of the first three in a row, or the fourth, after which the search begins at the
bit after its alignment word (R16). -/
def State.alignmentFault (s : State) (l : LinkId) : State :=
  let x := s.rx[l]
  if x.badRun < 3 then
    ((s.setRx l { passFrame x with badRun := x.badRun + 1, alignErrors := countUp 65535 x.alignErrors }).arrive l
      x.hold).report l .faulted
  else
    (s.setRx l { x with state := .hunting, candidates := 0, lookAt := x.lookAt + wordLength, badRun := 0,
                        alignErrors := countUp 65535 x.alignErrors, watch := 0 }).leftFramed l

/-- LINK FRAME (R15 to R18): a frame received in FRAMED at the position fixed on entry. -/
def State.takeFrame (s : State) (l : LinkId) (f : LinkFrame) : State :=
  match s.rx[l].state with
  | .framed =>
    if f.align ≠ alignmentWord then s.alignmentFault l
    else if evenParity f then s.goodFrame l f
    else s.parityFault l
  | _ => s

/-- LINE_TRANSITION. -/
def execLineTransition (l : LinkId) (s : State) : Host.Outcome State Fault Refusal := .next (s.lineTransition l)
/-- ACTIVITY_TIMEOUT. -/
def execActivityTimeout (l : LinkId) (s : State) : Host.Outcome State Fault Refusal := .next (s.activityTimeout l)
/-- ALIGNMENT_WORD_FOUND. -/
def execAlignmentWordFound (l : LinkId) (look : WordLook) (s : State) : Host.Outcome State Fault Refusal :=
  .next (s.alignmentWordFound l look)
/-- LINK_FRAME. -/
def execLinkFrame (l : LinkId) (f : LinkFrame) (s : State) : Host.Outcome State Fault Refusal := .next (s.takeFrame l f)

end Sys2Proof.Machine
end

