-- ==== Sys2Proof/Machine/Resets.lean ====
section
/-! DEFINITION. HARDWARE RESET, and the domain resets that RESET DOMAINS makes (R176). -/

namespace Sys2Proof.Machine

/-- HARDWARE RESET (R1, R13, R21, R28, R29, R31, R50, R51, R55, R57, R77, R79, R85, R99, R118, R120, R139, R140, R150, R161,
R164): the straps are latched; the delay store's words are not cleared (R77). -/
def State.hardwareReset (s : State) (cause : ResetCause) (rate96 : Bool) (addr : BitVec 6) (mlk : LinkId) : State :=
  resetState cause rate96 addr mlk s.store s.free s.pending

/-- A receiver under a LINKS reset (R20). -/
def resetLinkReceiver (x : Receiver) : Receiver :=
  { x with state := .hunting, candidates := 0, lookAt := 0, badRun := 0, parityErrors := 0, alignErrors := 0,
           hold := zeroSamples, watch := 0 }

/-- A converter under a LINKS reset (R32, R56): L_c is kept. R56 says only that an interrupted splice or measurement is
discarded: m and n become 0, and g, the splice phase and its frame count, the jump-made mark, the tracking count, R and the
recorded fill keep their values (DESIGN CHOICE, log entry 35). -/
def resetLinkConv (c : Conv) : Conv :=
  { enterDark c with ring := Vector.replicate 64 zeroSamples, w := 0#32, m := 0, n := 0, q0 := 0, qInt := 0, qApplied := 0,
                     slips := 0, saturations := 0, window := 0, lastSlip := none, filter := none, leaveDue := false }

/-- One link's receiver and converter under a LINKS reset, with the report of a link that leaves FRAMED (R20, R56). -/
def State.resetLink (s : State) (l : LinkId) : State :=
  let s' := (s.setRx l (resetLinkReceiver s.rx[l])).setCv l (resetLinkConv s.cv[l])
  if s.rx[l].state = .framed then s'.report l .leftFramed else s'

/-- The LINKS domain reset (R20, R28, R56). -/
def State.resetLinks (s : State) : State := (forLinks State.resetLink s).resetSources

/-- The DELAY domain reset (R76). -/
def State.resetDelay (s : State) : State :=
  forChannels (fun s c => s.setLine c (setLineNow s.lines[c] (s.lineTarget c))) s

/-- The mask names a domain: bit 0 LINKS, 1 MEASURE, 2 GAIN, 3 DELAY, 4 ALARMS (section 11.4). -/
def names (mask : Nat) (bit : Nat) : Bool := mask.testBit bit

/-- Do a part of the reset when the mask names it and its turn has come. -/
def State.part (s : State) (due : Bool) (f : State → State) : State := if due then f s else s

/-- The parts of one mask, each with its blocks' effects (R176). The spec lets the DELAY part be taken before or after the
LINKS and ALARMS parts: free values choose (log entry 10). -/
def State.resetParts (s : State) (mask : Nat) : State :=
  let late := Config.delayAfterLinks s.free
  let late' := Config.delayAfterAlarms s.free
  let s := s.part (names mask 1) State.resetMeasure
  let s := s.part (names mask 2) State.resetGain
  let s := s.part (names mask 0 && late) State.resetLinks
  let s := s.part (names mask 4 && late') State.resetAlarms
  let s := s.part (names mask 3) State.resetDelay
  let s := s.part (names mask 0 && !late) State.resetLinks
  let s := s.part (names mask 4 && !late') State.resetAlarms
  s.part (names mask 3) State.tookFree

/-- HARDWARE_RESET. -/
def execHardwareReset (cause : ResetCause) (rate96 : Bool) (addr : BitVec 6) (mlk : LinkId) (s : State) :
    Host.Outcome State Fault Refusal := .next (s.hardwareReset cause rate96 addr mlk)

end Sys2Proof.Machine
end

