-- ==== Sys2Proof/Machine/Commands.lean ====
section
/-! DEFINITION. The commands of the executor but for the table commands (sections 10.3 to 10.5): each answers the state it
leaves and its reply payload, after the checks of R165 in their order. -/

namespace Sys2Proof.Machine

/-- A refusal changes no state (R162, R165). -/
def State.refuse (s : State) (st : Status) : State × List Byte := (s, refusal st)

/-- The programme that a number 0 to 7 names. -/
def progOf (n : Nat) : ProgId := Fin.ofNat 8 n

/-! ### Identity, status and reads (section 10.3) -/

/-- The mask and HFC of the last domain reset as IDENTIFY carries them: 0 for none (section 11.6). -/
def domainRecord (d : Option (Byte × Instant)) : List Byte :=
  match d with
  | some x => x.1 :: beBytes 4 x.2.toNat
  | none => 0#8 :: beBytes 4 0

/-- The results of IDENTIFY (R170). -/
def State.identity (s : State) : List Byte :=
  beBytes 2 partCode ++ beBytes 1 revision ++ beBytes 1 s.port.addr.toNat ++ beBytes 1 s.port.mlk.val ++
    beBytes 1 (flag s.tb.rate96) ++ beBytes 1 (causeCode s.port.cause) ++ domainRecord s.port.domain ++
    beBytes 4 s.tb.hfc.toNat

/-- IDENTIFY (R170). -/
def State.identify (s : State) (bs : List Byte) : State × List Byte :=
  if bs.length ≠ 0 then s.refuse .badLength else (s, okReply s.identity)

/-- The eight error counts in the order of R163. -/
def errorBytes (e : ErrorCounts) : List Byte :=
  beBytes 2 e.crc ++ beBytes 2 e.header ++ beBytes 2 e.interrupted ++ beBytes 2 e.frameFault ++ beBytes 2 e.timeout ++
    beBytes 2 e.linkLoss ++ beBytes 2 e.relayOverflow ++ beBytes 2 e.commandOverflow

/-- A rule's byte in READ STATUS: bit 7 the ack flag, bits 2–0 the state. -/
def ruleByte (r : Rule) : Byte := BitVec.ofNat 8 (flag r.ack * 128 + ruleCode r.state)

/-- The figures of the timebase (R12). -/
def timebaseFigures (t : Timebase) : List Byte :=
  beBytes 1 (refCode t.ref) ++ beBytes 1 (flag t.lost) ++ beBytes 4 t.held ++ beBytes 4 t.hfc.toNat ++
    beBytes 4 t.slice.toNat ++ beBytes 2 t.phase

/-- The figures of the alarm engine (R139). -/
def State.alarmFigures (s : State) : List Byte :=
  beBytes 1 s.port.noticesLost ++
    beBytes 1 (flag (s.lineDriven .major) * 4 + flag (s.lineDriven .minor) * 2 + flag (s.lineDriven .notice)) ++
    allRules.map fun r => ruleByte s.alarm.rules[r]

/-- The figures of the table store (R145). -/
def tableFigures (t : Tables) : List Byte :=
  beBytes 1 (bankStateCode t.bankState) ++ beBytes 1 (flag t.marker) ++ beBytes 1 (flag t.pendingInstant.isSome) ++
    beBytes 4 (t.pendingInstant.getD 0#32).toNat ++ beBytes 1 t.copyPos

/-- The figures of the management port (R163). -/
def portFigures (p : Port) : List Byte :=
  errorBytes p.errors ++ beBytes 1 p.relay.length ++ beBytes 1 p.commands.length ++ beBytes 1 p.replies.length ++
    beBytes 1 p.notices.length ++ beBytes 1 (flag p.holding.isSome) ++ beBytes 1 (flag p.assembler.collecting)

/-- The 120 bytes of results of READ STATUS (R171, section 11.6). -/
def State.statusFigures (s : State) : List Byte :=
  timebaseFigures s.tb ++
    (allLinks.flatMap fun l =>
      beBytes 1 (rxCode s.rx[l].state) ++ beBytes 2 s.rx[l].parityErrors ++ beBytes 2 s.rx[l].alignErrors) ++
    (allLinks.flatMap fun l =>
      beBytes 1 (cvCode s.cv[l].state) ++ beBytes 2 s.cv[l].slips ++ beBytes 2 s.cv[l].saturations) ++
    s.alarmFigures ++ tableFigures s.tables ++ portFigures s.port

/-- What READ STATUS clears with CLEAR (R172). -/
def State.clearCounts (s : State) : State :=
  { s with tb := { s.tb with lost := false },
           rx := s.rx.map fun x => { x with parityErrors := 0, alignErrors := 0 },
           cv := s.cv.map fun x => { x with slips := 0, saturations := 0 },
           port := { s.port with noticesLost := 0, errors := zeroErrors } }

/-- READ STATUS (R171, R172). -/
def State.readStatus (s : State) (bs : List Byte) : State × List Byte :=
  if bs.length ≠ 1 then s.refuse .badLength
  else if byteAt bs 0 = 0 then (s, okReply s.statusFigures)
  else if byteAt bs 0 = 1 then (s.clearCounts, okReply s.statusFigures)
  else s.refuse .badValue

/-- How a SLOT_MAP entry uses a link: 1 primary, 2 backup, 3 both, 0 neither (R173). -/
def linkUse (e : SlotEntry) (l : LinkId) : Nat :=
  let on (x : Option Source) : Bool := match x with
    | some src => src.link == l
    | none => false
  flag (on e.primary) + 2 * flag (on e.backup)

/-- READ LINK's entry for a channel (R173). -/
def State.linkEntry (s : State) (l : LinkId) (c : ChannelId) : List Byte :=
  beBytes 1 c.val ++ beBytes 1 (linkUse s.active.slotMap[c] l) ++ beBytes 1 (sourceCode s.sources[c]) ++
    beBytes 1 (match s.switchingRule c with
      | some r => r.val
      | none => 255)

/-- The results of READ LINK (R54, R173). -/
def State.linkFigures (s : State) (l : LinkId) : List Byte :=
  let x := s.rx[l]
  let c := s.cv[l]
  let mode := s.modeOf l
  let cs := allChannels.filter fun ch => decide (linkUse s.active.slotMap[ch] l ≠ 0)
  beBytes 1 l.val ++ beBytes 1 (rxCode x.state) ++ beBytes 2 x.parityErrors ++ beBytes 2 x.alignErrors ++
    beBytes 1 (modeCode mode) ++ beBytes 1 (cvCode c.state) ++ beBytes 4 c.q0 ++ beBytes 4 c.qInt ++
    beBytes 4 (measuredRate s.tb.rate96 mode c) ++ beSigned 2 (presentedFill c) ++ beBytes 1 c.lc ++
    beBytes 1 (match presentedFilter mode c with
      | some f => f.val
      | none => 255) ++
    beBytes 2 c.slips ++ beBytes 2 c.saturations ++
    beBytes 1 (flag (ratioLimit mode c) + 2 * flag c.lastSlip.isSome) ++ beBytes 4 (c.lastSlip.getD 0#32).toNat ++
    beBytes 1 cs.length ++ cs.flatMap fun ch => s.linkEntry l ch

/-- READ LINK (R173). -/
def State.readLink (s : State) (bs : List Byte) : State × List Byte :=
  if bs.length ≠ 1 then s.refuse .badLength
  else if 3 < byteAt bs 0 then s.refuse .badIndex
  else (s, okReply (s.linkFigures (subjectLink (byteAt bs 0))))

/-- The latest power P of a programme: the newest of its history; with an empty history, a free value (log entry 8). -/
def State.latestPower (s : State) (p : ProgId) : Nat :=
  match s.loud[p].history with
  | x :: _ => x
  | [] => (Config.unformedPower s.free).toNat

/-- READ PROGRAMME's loudness figures (R93). With no latest window the byte of its marks is 0 (DESIGN CHOICE, log entry
31). -/
def State.loudFigures (s : State) (p : ProgId) (r : ProgRecord) : List Byte :=
  let l := s.loud[p]
  beBytes 6 (s.latestPower p) ++ beBytes 1 l.history.length ++ beSigned 2 ((s.windowLevel p).getD noneLevel) ++
    beBytes 1 (match l.window with
      | some w => flag w.gatedIn + 2 * flag w.admitted
      | none => 0) ++
    beBytes 8 l.sum ++ beBytes 2 l.count ++ beSigned 2 ((integratedLevel l.sum l.count r.offset).getD noneLevel)

/-- READ PROGRAMME's delay figures of a member (R74). -/
def State.memberFigures (s : State) (c : ChannelId) : List Byte :=
  let l := s.lines[c]
  (match s.regionOf c with
    | some r => beBytes 2 r.base ++ beBytes 2 r.count
    | none => beBytes 2 0 ++ beBytes 2 0) ++
    beBytes 3 l.v ++ beBytes 2 l.cur ++ beBytes 2 l.tgt ++ beBytes 1 (moveCode l.move) ++ beBytes 1 l.g ++
    beBytes 1 (flag l.short + 2 * flag l.clamped)

/-- A queue slot of READ PROGRAMME: 0 beyond the entry count (section 11.6). -/
def queueSlot (q : List GainEntry) (i : Nat) : List Byte :=
  match q[i]? with
  | some e => beBytes 4 e.due.toNat ++ beSigned 2 e.target
  | none => beBytes 4 0 ++ beBytes 2 0

/-- READ PROGRAMME's gain figures (R119). -/
def gainFigures (r : ProgRecord) (g : Gain) : List Byte :=
  beSigned 2 g.tgt ++ beSigned 2 g.app ++ beBytes 2 g.ramp ++ beBytes 1 g.queue.length ++
    ((List.range 4).flatMap fun i => queueSlot g.queue i) ++ beBytes 1 (decisionCode g.decision) ++
    beSigned 2 (g.gNew.getD noneLevel) ++ beBytes 4 g.reasons.toNat ++ beBytes 1 (flag g.command) ++ beBytes 1 g.fader ++
    beSigned 2 (appliedGain g.app r.trim)

/-- The results of READ PROGRAMME for a present programme (R174). -/
def State.programmeFigures (s : State) (p : ProgId) (r : ProgRecord) : List Byte :=
  beBytes 1 p.val ++ beBytes 1 1 ++ beBytes 1 r.members.length ++
    (r.members.flatMap fun m => beBytes 1 m.channel.val ++ beBytes 1 m.weight) ++ s.loudFigures p r ++
    beBytes 2 (s.lookahead p) ++ (r.members.flatMap fun m => s.memberFigures m.channel) ++ gainFigures r s.gain[p]

/-- READ PROGRAMME (R174). It changes no state of the part; the model's counter moves when a free value was presented. -/
def State.readProgramme (s : State) (bs : List Byte) : State × List Byte :=
  if bs.length ≠ 1 then s.refuse .badLength
  else if 7 < byteAt bs 0 then s.refuse .badIndex
  else
    let p := progOf (byteAt bs 0)
    match s.record p with
    | none => (s, okReply (beBytes 1 p.val ++ beBytes 1 0))
    | some r => (if s.loud[p].history = [] then s.tookFree else s, okReply (s.programmeFigures p r))

/-- A latest record as READ SLICE carries it (R85). -/
def latestBytes (l : Latest) : List Byte := beBytes 5 l.ms ++ beBytes 3 l.peak ++ beBytes 2 l.fsCount ++ beBytes 2 l.outClips

/-- How many 12-byte records READ SLICE returns (R175, section 11.6). -/
def sliceReturned (count : Nat) : Nat := min count 20

/-- The results of READ SLICE (R175). -/
def State.sliceFigures (s : State) (first count : Nat) : List Byte :=
  let covered := s.meas[subjectChannel first].latest.covers
  beBytes 1 first ++ beBytes 1 (sliceReturned count) ++ beBytes 1 (flag covered.isSome) ++
    beBytes 4 (covered.getD 0#32).toNat ++
    (List.range (sliceReturned count)).flatMap fun i => latestBytes s.meas[subjectChannel (first + i)].latest

/-- READ SLICE (R175). -/
def State.readSlice (s : State) (bs : List Byte) : State × List Byte :=
  if bs.length ≠ 2 then s.refuse .badLength
  else if 31 < byteAt bs 0 ∨ byteAt bs 1 = 0 ∨ 32 < byteAt bs 0 + byteAt bs 1 then s.refuse .badIndex
  else (s, okReply (s.sliceFigures (byteAt bs 0) (byteAt bs 1)))

/-! ### The take (R143 to R145, R177) -/

/-- The reply of a CONFLICT (section 11.6). -/
def conflictReply (c : Conflict) : List Byte :=
  statusByte .conflict :: (beBytes 1 c.check ++ beBytes 1 c.table ++ beBytes 2 c.entry ++ beBytes 2 c.second)

/-- TAKE (R143, R144, R177). -/
def State.takeCommandOf (s : State) (bs : List Byte) : State × List Byte :=
  if bs.length ≠ 5 then s.refuse .badLength
  else if 2 < byteAt bs 0 then s.refuse .badValue
  else if s.tables.bankState ≠ .editing then s.refuse .busy
  else match takeInstant s.tb (byteAt bs 0) (BitVec.ofNat 32 (fieldAt bs 1 4)) with
    | none => s.refuse .badValue
    | some i =>
      match validate (standbyBank s.tables) with
      | some c => (s, conflictReply c)
      | none => (s.setTables (armTake i s.tables), okReply (beBytes 4 i.toNat))

/-- CANCEL TAKE (R145, R177). Before TAKE SWAP it is accepted in the frame of the instant whatever form the take had, so
for NEXT_FRAME too (DESIGN CHOICE, log entry 30). -/
def State.cancelTake (s : State) (bs : List Byte) : State × List Byte :=
  if bs.length ≠ 0 then s.refuse .badLength
  else match s.tables.bankState with
    | .editing => s.refuse .badState
    | .copying => s.refuse .busy
    | .armed => (s.setTables (disarmTake s.tables), okReply (beBytes 4 (s.tables.pendingInstant.getD 0#32).toNat))

/-! ### Live adjusts and mute (R112 to R114, R149, R178) -/

/-- The state checks of the live adjusts, in their order (R149). -/
def State.adjustRefusal (s : State) (p : ProgId) : Option Status :=
  if s.tables.bankState ≠ .editing then some .busy
  else if banksWritten s.tables p = 0 then some .badState
  else none

/-- The reply of a live adjust on OK (R178). -/
def State.adjustReply (s : State) (p : ProgId) (value : List Byte) : List Byte :=
  okReply (beBytes 1 p.val ++ value ++ beBytes 1 (banksWritten s.tables p))

/-- SET DELAY (R149, R72). -/
def State.setDelay (s : State) (bs : List Byte) : State × List Byte :=
  if bs.length ≠ 3 then s.refuse .badLength
  else if 7 < byteAt bs 0 then s.refuse .badIndex
  else
    let p := progOf (byteAt bs 0)
    let d := fieldAt bs 1 2
    match s.adjustRefusal p with
    | some st => s.refuse st
    | none =>
      ((s.setTables (adjustTables (fun r => { r with dt := d }) p s.tables)).answerDelay p ((s.record p).map (·.dt)),
       s.adjustReply p (beBytes 2 d))

/-- SET TARGET (R113). -/
def State.setTarget (s : State) (bs : List Byte) : State × List Byte :=
  if bs.length ≠ 3 then s.refuse .badLength
  else if 7 < byteAt bs 0 then s.refuse .badIndex
  else
    let p := progOf (byteAt bs 0)
    let v := signedAt bs 1 2
    if !within (-400) (-100) v then s.refuse .badValue
    else match s.adjustRefusal p with
      | some st => s.refuse st
      | none => (s.setTables (adjustTables (fun r => { r with target := v }) p s.tables), s.adjustReply p (beSigned 2 v))

/-- SET TRIM (R114): the new trim enters A from the next house frame. -/
def State.setTrim (s : State) (bs : List Byte) : State × List Byte :=
  if bs.length ≠ 3 then s.refuse .badLength
  else if 7 < byteAt bs 0 then s.refuse .badIndex
  else
    let p := progOf (byteAt bs 0)
    let v := signedAt bs 1 2
    if !within (-240) 120 v then s.refuse .badValue
    else match s.adjustRefusal p with
      | some st => s.refuse st
      | none => (s.setTables (adjustTables (fun r => { r with trim := v }) p s.tables), s.adjustReply p (beSigned 2 v))

/-- COMMAND added to or removed from a present programme's reason set, with the reply (R112, R178). -/
def State.setCommand (s : State) (p : ProgId) (on : Bool) : State × List Byte :=
  let s' := s.setGain p { s.gain[p] with command := on }
  (s', okReply (beBytes 1 p.val ++ beBytes 1 (flag (mutedGain s'.gain[p]))))

/-- MUTE (R112, R178). -/
def State.mute (s : State) (bs : List Byte) : State × List Byte :=
  if bs.length ≠ 1 then s.refuse .badLength
  else if 7 < byteAt bs 0 then s.refuse .badIndex
  else if !s.present (progOf (byteAt bs 0)) then s.refuse .badState
  else s.setCommand (progOf (byteAt bs 0)) true

/-- UNMUTE (R112, R178). -/
def State.unmute (s : State) (bs : List Byte) : State × List Byte :=
  if bs.length ≠ 1 then s.refuse .badLength
  else if 7 < byteAt bs 0 then s.refuse .badIndex
  else if !s.present (progOf (byteAt bs 0)) then s.refuse .badState
  else s.setCommand (progOf (byteAt bs 0)) false

/-! ### Alarm commands (R121, R129, R179) -/

/-- A state with the two counts of ACK ALARM: rules taken from HELD, and ack flags set. -/
structure Acked where
  state : State
  taken : Nat
  flags : Nat
  deriving DecidableEq, Repr

/-- ACK ALARM on one rule (R129). A rule whose ack flag stands already is counted again (DESIGN CHOICE, log entry 23). The
value of a CLEARED notice is read before the rule's actions are released (DESIGN CHOICE, log entry 29). -/
def ackRule (a : Acked) (r : RuleId) : Acked :=
  let x := a.state.alarm.rules[r]
  match x.state with
  | .active => { a with state := a.state.setRule r { x with ack := true }, flags := a.flags + 1 }
  | .easing => { a with state := a.state.setRule r { x with ack := true }, flags := a.flags + 1 }
  | .held =>
    { a with state := a.state.clearRule r a.state.tables.ruleRecords[r] (a.state.noticeValue a.state.tables.ruleRecords[r]),
             taken := a.taken + 1 }
  | .quiet => a
  | .onset => a

/-- The rules that ACK ALARM names: one, or ALL in ascending number (R179). -/
def ackNames (n : Nat) : List RuleId := if n = 255 then allRules else [Fin.ofNat 32 n]

/-- ACK ALARM (R129, R179). -/
def State.ackAlarm (s : State) (bs : List Byte) : State × List Byte :=
  if bs.length ≠ 1 then s.refuse .badLength
  else if 31 < byteAt bs 0 ∧ byteAt bs 0 ≠ 255 then s.refuse .badIndex
  else
    let a := (ackNames (byteAt bs 0)).foldl ackRule { state := s, taken := 0, flags := 0 }
    (a.state, okReply (beBytes 1 a.taken ++ beBytes 1 a.flags))

/-- Write a rule's enabled field. -/
def setEnabled (r : RuleId) (on : Bool) (t : Tables) : Tables :=
  { t with ruleRecords := t.ruleRecords.set r.val { t.ruleRecords[r] with enabled := on } }

/-- The reply of ENABLE RULE and DISABLE RULE (R179). -/
def State.enableReply (s : State) (r : RuleId) : List Byte :=
  okReply (beBytes 1 r.val ++ beBytes 1 (flag s.tables.ruleRecords[r].enabled))

/-- ENABLE RULE (R121, R179). -/
def State.enableRule (s : State) (bs : List Byte) : State × List Byte :=
  if bs.length ≠ 1 then s.refuse .badLength
  else if 31 < byteAt bs 0 then s.refuse .badIndex
  else
    let r : RuleId := Fin.ofNat 32 (byteAt bs 0)
    (if s.tables.ruleRecords[r].enabled then s else s.setTables (setEnabled r true s.tables), s.enableReply r)

/-- DISABLE RULE (R121, R179): the rule goes to QUIET as at a write. -/
def State.disableRule (s : State) (bs : List Byte) : State × List Byte :=
  if bs.length ≠ 1 then s.refuse .badLength
  else if 31 < byteAt bs 0 then s.refuse .badIndex
  else
    let r : RuleId := Fin.ofNat 32 (byteAt bs 0)
    (if s.tables.ruleRecords[r].enabled then
        (s.quietRecord r s.tables.ruleRecords[r]).setTables
          (setEnabled r false (s.quietRecord r s.tables.ruleRecords[r]).tables)
      else s, s.enableReply r)

/-! ### RESTORE PRIMARY and the integrator (R27, R95, R180) -/

/-- The channels of a 32-bit set, in ascending number; bit c names channel c (section 11.4). -/
def channelsOf (mask : Nat) : List ChannelId := allChannels.filter fun c => mask.testBit c.val

/-- The channels whose selected source differs between two states, as a 32-bit set. -/
def changedSources (s s' : State) (cs : List ChannelId) : Nat :=
  (cs.foldl (fun (a : BitVec 32) c => if s.selectedOf c = s'.selectedOf c then a else insertMember a c) 0#32).toNat

/-- RESTORE PRIMARY (R27, R180). -/
def State.restorePrimary (s : State) (bs : List Byte) : State × List Byte :=
  if bs.length ≠ 4 then s.refuse .badLength
  else if fieldAt bs 0 4 = 0 then s.refuse .badValue
  else
    let cs := channelsOf (fieldAt bs 0 4)
    let s' := cs.foldl State.restoreChannel s
    (s', okReply (beBytes 4 (changedSources s s' cs)))

/-- RESET INTEGRATOR (R95, R180). -/
def State.resetIntegrator (s : State) (bs : List Byte) : State × List Byte :=
  if bs.length ≠ 1 then s.refuse .badLength
  else if 7 < byteAt bs 0 then s.refuse .badIndex
  else
    let p := progOf (byteAt bs 0)
    if !s.present p then s.refuse .badState
    else (s.setLoud p (clearIntegrator s.loud[p]),
          okReply (beBytes 1 p.val ++ beBytes 8 s.loud[p].sum ++ beBytes 2 s.loud[p].count))

/-! ### Context commands (R96, R97, R116, R181, R182) -/

/-- The context record of a programme: one byte of zeros when it is absent (R96, R185). -/
def State.contextOf (s : State) (p : ProgId) : List Byte :=
  match s.record p with
  | none => [0#8]
  | some r =>
    let l := s.loud[p]
    contextBytes
      { members := r.members.length, sum := l.sum, count := l.count, p1 := historyPower l 0, p2 := historyPower l 1,
        p3 := historyPower l 2, p4 := historyPower l 3, pair := gainPair s.gain[p].tgt s.gain[p].app }

/-- The records for n down to 0 (R96). -/
def State.contextsFrom (s : State) : Nat → List Byte
  | 0 => s.contextOf (progOf 0)
  | n + 1 => s.contextOf (progOf (n + 1)) ++ s.contextsFrom n

/-- READ CONTEXT (R96, R181). -/
def State.readContexts (s : State) (bs : List Byte) : State × List Byte :=
  if bs.length ≠ 1 then s.refuse .badLength
  else if 7 < byteAt bs 0 then s.refuse .badIndex
  else if 246 < (s.contextsFrom (byteAt bs 0)).length then s.refuse .badState
  else (s, okReply (beBytes 1 (byteAt bs 0 + 1) ++ s.contextsFrom (byteAt bs 0)))

/-- The bounds that R97 puts on an applied record's integrator and powers. -/
def contextInBounds (c : Context) : Bool :=
  (c.count != 0 || c.sum == 0) && decide (c.sum ≤ c.count * largestPower) && decide (c.p1 ≤ largestPower) &&
    decide (c.p2 ≤ largestPower) && decide (c.p3 ≤ largestPower) && decide (c.p4 ≤ largestPower)

/-- A present record is applied to a programme, or skipped (R97). -/
def State.appliesTo (s : State) (c : Context) (p : ProgId) : Bool :=
  match s.record p with
  | none => false
  | some r => c.members == r.members.length && contextInBounds c

/-- The measurement that an applied record loads (R97). -/
def loadedLoud (c : Context) : Loud := { history := [c.p1, c.p2, c.p3, c.p4], window := none, sum := c.sum, count := c.count }

/-- An applied record (R97, R116). -/
def State.applyContext (s : State) (c : Context) (p : ProgId) : State :=
  match s.record p with
  | none => s
  | some r => (s.setLoud p (loadedLoud c)).setGain p (loadGain r (pairTarget c.pair) s.gain[p])

/-- A state with the two counts of LOAD CONTEXT. -/
structure Loaded where
  state : State
  applied : Nat
  skipped : Nat
  deriving DecidableEq, Repr

/-- One record passed over, skipped or applied to a programme (R97). -/
def loadRecord (a : Loaded) (bs : List Byte) (p : ProgId) : Loaded :=
  if byteAt bs 0 < 128 then a
  else if a.state.appliesTo (readContext bs) p then
    { a with state := a.state.applyContext (readContext bs) p, applied := a.applied + 1 }
  else { a with skipped := a.skipped + 1 }

/-- The records in the order given, to programmes k − 1 down to 0 (R97, R182). -/
def loadRecords (a : Loaded) : List (List Byte) → Loaded
  | [] => a
  | bs :: rest => loadRecords (loadRecord a bs (progOf rest.length)) rest

/-- LOAD CONTEXT (R97, R116, R182). -/
def State.loadContexts (s : State) (bs : List Byte) : State × List Byte :=
  match cutRecords contextSize bs.length 0 bs with
  | .records rs =>
    if rs = [] ∨ 8 < rs.length then s.refuse .badLength
    else if badContext rs then s.refuse .badValue
    else
      let a := loadRecords { state := s, applied := 0, skipped := 0 } rs
      (a.state, okReply (beBytes 1 a.applied ++ beBytes 1 a.skipped))
  | _ => s.refuse .badLength

/-! ### RESET DOMAINS and unknown codes (R165, R176) -/

/-- The reset record takes the mask and the HFC (R164). -/
def State.recordReset (s : State) (mask : Byte) : State := s.setPort { s.port with domain := some (mask, s.tb.hfc) }

/-- RESET DOMAINS (R176). -/
def State.resetDomains (s : State) (bs : List Byte) : State × List Byte :=
  if bs.length ≠ 1 then s.refuse .badLength
  else if byteAt bs 0 = 0 ∨ 31 < byteAt bs 0 then s.refuse .badValue
  else ((s.resetParts (byteAt bs 0)).recordReset (BitVec.ofNat 8 (byteAt bs 0)),
        okReply (beBytes 1 (byteAt bs 0) ++ beBytes 4 s.tb.hfc.toNat))

/-- A code that names no command (R165). -/
def State.unknownCode (s : State) (_bs : List Byte) : State × List Byte := s.refuse .badCode

end Sys2Proof.Machine
end

