-- ==== Sys2Proof/Machine/TableCommands.lean ====
section
/-! DEFINITION. The table commands (section 10.2): READ ENTRIES, WRITE ENTRIES and FILL ENTRIES. -/

namespace Sys2Proof.Machine

/-- Entry `i` of a table, read from a bank of the routing set and from the unbanked tables (R140, R167). -/
def entryOf (t : Tables) (b : Routing) (name : TableName) (i : Nat) : Record :=
  match name with
  | .slotMap => .slotMap b.slotMap[Fin.ofNat 32 i]
  | .outputMap => .outputMap b.outputMap[Fin.ofNat 32 i]
  | .programmes => .programme b.programmes[Fin.ofNat 8 i]
  | .regions => .region b.regions[Fin.ofNat 32 i]
  | .linkConfig => .linkConfig t.linkConfig[Fin.ofNat 4 i]
  | .filterSets => .filter (readCell 0 t.filters i)
  | .setSelect => .select t.setSelect[Fin.ofNat 4 i]
  | .weighting => .weighting t.weighting[Fin.ofNat 10 i]
  | .alarmRules => .alarmRule t.ruleRecords[Fin.ofNat 32 i]

/-- A record put into entry `i` of a bank. -/
def putBanked (b : Routing) (i : Nat) (r : Record) : Routing :=
  match r with
  | .slotMap e => { b with slotMap := b.slotMap.set (Fin.ofNat 32 i).val e (Fin.ofNat 32 i).isLt }
  | .outputMap o => { b with outputMap := b.outputMap.set (Fin.ofNat 32 i).val o (Fin.ofNat 32 i).isLt }
  | .programme p => { b with programmes := b.programmes.set (Fin.ofNat 8 i).val p (Fin.ofNat 8 i).isLt }
  | .region g => { b with regions := b.regions.set (Fin.ofNat 32 i).val g (Fin.ofNat 32 i).isLt }
  | _ => b

/-- A record put into entry `i` of its table: the standby bank of a banked table, the one copy of another (R140, R168). -/
def putEntry (t : Tables) (i : Nat) (r : Record) : Tables :=
  match r with
  | .linkConfig c => { t with linkConfig := t.linkConfig.set (Fin.ofNat 4 i).val c (Fin.ofNat 4 i).isLt }
  | .filter v => { t with filters := writeCell 0 t.filters i v }
  | .select e => { t with setSelect := t.setSelect.set (Fin.ofNat 4 i).val e (Fin.ofNat 4 i).isLt }
  | .weighting v => { t with weighting := t.weighting.set (Fin.ofNat 10 i).val v (Fin.ofNat 10 i).isLt }
  | .alarmRule x => { t with ruleRecords := t.ruleRecords.set (Fin.ofNat 32 i).val x (Fin.ofNat 32 i).isLt }
  | .slotMap e => setStandbyBank t (putBanked (standbyBank t) i (.slotMap e))
  | .outputMap o => setStandbyBank t (putBanked (standbyBank t) i (.outputMap o))
  | .programme p => setStandbyBank t (putBanked (standbyBank t) i (.programme p))
  | .region g => setStandbyBank t (putBanked (standbyBank t) i (.region g))

/-- A record written with the effect its table gives: a LINK_CONFIG entry whose mode changes sends its converter to DARK
(R31); an ALARM_RULES record returns its rule to QUIET (R121). -/
def State.writeEntry (s : State) (i : Nat) (r : Record) : State :=
  match r with
  | .linkConfig c =>
    let l : LinkId := Fin.ofNat 4 i
    let s' := s.setTables (putEntry s.tables i r)
    if s.modeOf l = c.mode then s' else s'.darken l
  | .alarmRule _ =>
    let k : RuleId := Fin.ofNat 32 i
    let s' := s.quietRecord k s.tables.ruleRecords[k]
    s'.setTables (putEntry s'.tables i r)
  | _ => s.setTables (putEntry s.tables i r)

/-- Records written in ascending index from the first (R168). -/
def State.writeRecords (s : State) (first : Nat) : List Record → State
  | [] => s
  | r :: rest => (s.writeEntry first r).writeRecords (first + 1) rest

/-! ### Value checks (R168, R169) -/

/-- The position of the first record that fails its value checks. -/
def firstFaulty (t : TableName) : List (List Byte) → Option Nat
  | [] => none
  | bs :: rest => match readRecord t bs with
    | none => some 0
    | some _ => (firstFaulty t rest).map (· + 1)

/-- SET_SELECT as it would stand after a write of bytes from entry `first`: none for an entry whose own record is faulty. -/
def selectAfter (t : Tables) (first : Nat) (rs : List (List Byte)) (i : Fin 4) : Option (Option SelectEntry) :=
  if i.val < first then some t.setSelect[i]
  else match rs[i.val - first]? with
    | some bs => readSelect bs
    | none => some t.setSelect[i]

/-- The first faulty entry of SET_SELECT in table order: one whose record is faulty, or an enabled one whose bound is not
greater than the one before it (R51; log entry 20). `last` is the bound before. -/
def firstDisorder (es : List (Nat × Option (Option SelectEntry))) (last : Option Nat) : Option Nat :=
  match es with
  | [] => none
  | (i, none) :: _ => some i
  | (_, some none) :: rest => firstDisorder rest last
  | (i, some (some e)) :: rest =>
    match last with
    | some b => if e.bound ≤ b then some i else firstDisorder rest (some e.bound)
    | none => firstDisorder rest (some e.bound)

/-- The entry index of the first faulty entry of a write, or none (R51, R168). -/
def faultyEntry (t : Tables) (name : TableName) (first : Nat) (rs : List (List Byte)) : Option Nat :=
  match name with
  | .setSelect => firstDisorder ((List.finRange 4).map fun i => (i.val, selectAfter t first rs i)) none
  | _ => (firstFaulty name rs).map (first + ·)

/-- An entry of FILTER_SETS belongs to a set in use of a link that is LOCKED or SPLICING (R50). -/
def State.setInUse (s : State) (i : Nat) : Bool :=
  allLinks.any fun l => match presentedFilter (s.modeOf l) s.cv[l] with
    | some set => set.val == i / 1536
    | none => false

/-- The state checks of a table write of `n` entries from `first` (R168). -/
def State.writeRefusal (s : State) (name : TableName) (first n : Nat) : Option Status :=
  if banked name && s.tables.bankState != .editing then some .busy
  else if name == .filterSets && (List.range n).any fun k => s.setInUse (first + k) then some .inUse
  else none

/-- BAD_VALUE on a table write carries the entry index, modulo 65,536 (R166, R168). -/
def badEntry (i : Nat) : List Byte := statusByte .badValue :: beBytes 2 (i % 65536)

/-- The reply on OK of a table write (section 11.6). -/
def writeReply (code first n : Nat) : List Byte := okReply (beBytes 1 code ++ beBytes 2 first ++ beBytes 2 n)

/-- The entry index of the faulty entry that a fill of one record over `n` entries reports, or none: an enabled SET_SELECT
record repeated is reported at the fill's second entry (R169). -/
def faultyFill (t : Tables) (name : TableName) (first n : Nat) (bs : List Byte) : Option Nat :=
  match name, readSelect bs with
  | .setSelect, some (some _) =>
    if 2 ≤ n then some (first + 1) else faultyEntry t name first (List.replicate n bs)
  | _, _ => faultyEntry t name first (List.replicate n bs)

/-- A table write of parsed records after the index check and the value checks, whose first faulty entry is `faulty`: state
checks, effect (R168, R169). -/
def State.putRecords (s : State) (code : Nat) (name : TableName) (first : Nat) (faulty : Option Nat)
    (rs : List (List Byte)) : State × List Byte :=
  match faulty with
  | some i => (s, badEntry i)
  | none =>
    match s.writeRefusal name first rs.length with
    | some st => s.refuse st
    | none => (s.writeRecords first (rs.filterMap (readRecord name)), writeReply code first rs.length)

/-- WRITE ENTRIES (R166, R168). -/
def State.writeEntries (s : State) (bs : List Byte) : State × List Byte :=
  if bs.length < 3 then s.refuse .badLength
  else match tableOf (byteAt bs 0) with
    | none => s.refuse .badIndex
    | some name =>
      let first := fieldAt bs 1 2
      match cutWrite name (bs.drop 3) with
      | .badLength => s.refuse .badLength
      | .badCount k => (s, badEntry (first + k))
      | .records rs =>
        if tableSize name < first + rs.length then s.refuse .badIndex
        else s.putRecords (byteAt bs 0) name first (faultyEntry s.tables name first rs) rs

/-- FILL ENTRIES (R166, R169). -/
def State.fillEntries (s : State) (bs : List Byte) : State × List Byte :=
  if bs.length < 5 then s.refuse .badLength
  else match tableOf (byteAt bs 0) with
    | none => s.refuse .badIndex
    | some name =>
      let first := fieldAt bs 1 2
      let r := fieldAt bs 3 2
      match cutFill name (bs.drop 5) with
      | .badLength => s.refuse .badLength
      | .badCount k => (s, badEntry (first + k))
      | .records rs =>
        if tableSize name ≤ first + r then s.refuse .badIndex
        else s.putRecords (byteAt bs 0) name first (faultyFill s.tables name first (r + 1) (rs.headD []))
          (List.replicate (r + 1) (rs.headD []))

/-! ### READ ENTRIES (R166, R167) -/

/-- The longest run of whole records that fits in `room` bytes (R167). -/
def fitting : Nat → List (List Byte) → List (List Byte)
  | _, [] => []
  | room, r :: rest => if r.length ≤ room then r :: fitting (room - r.length) rest else []

/-- The records that READ ENTRIES returns: 241 bytes remain for them (R167, section 11.6). -/
def entriesReturned (t : Tables) (b : Routing) (name : TableName) (first count : Nat) : List (List Byte) :=
  fitting 241 ((List.range (min count 241)).map fun k => recordBytes (entryOf t b name (first + k)))

/-- READ ENTRIES (R166, R167, R142). -/
def State.readEntries (s : State) (bs : List Byte) : State × List Byte :=
  if bs.length < 6 then s.refuse .badLength
  else match tableOf (byteAt bs 0) with
    | none => s.refuse .badIndex
    | some name =>
      let first := fieldAt bs 2 2
      let count := fieldAt bs 4 2
      if bs.length ≠ 6 then s.refuse .badLength
      else if count = 0 ∨ tableSize name < first + count then s.refuse .badIndex
      else if 1 < byteAt bs 1 then s.refuse .badValue
      else if banked name && byteAt bs 1 == 1 && s.tables.bankState == .copying then s.refuse .busy
      else
        let b := if byteAt bs 1 = 1 then standbyBank s.tables else activeBank s.tables
        let rs := entriesReturned s.tables b name first count
        (s, okReply (beBytes 1 (byteAt bs 0) ++ beBytes 1 (byteAt bs 1) ++ beBytes 2 first ++ beBytes 2 rs.length ++
              rs.flatten))

end Sys2Proof.Machine
end

