-- ==== Sys2Proof/Machine/Executor.lean ====
section
/-! DEFINITION. The command executor (R158, R165): which command each code names, and one step for each row of the table
that is a command. A row acts when the executor is ready and the head of the command queue carries its code. -/

namespace Sys2Proof.Machine

/-- The head's code is this one. -/
def isCode (n : Nat) (c : Byte) : Bool := c.toNat == n

/-- The codes that name commands (section 11.3). -/
def commandCodes : List Nat :=
  [0x01, 0x02, 0x03, 0x04, 0x05, 0x10, 0x11, 0x12, 0x18, 0x19, 0x20, 0x21, 0x22, 0x28, 0x29, 0x30, 0x31, 0x32, 0x38,
   0x40, 0x41, 0x42, 0x48]

/-- The head's code names no command. -/
def isUnknown (c : Byte) : Bool := !commandCodes.contains c.toNat

/-- What the command of a code does, unknown codes among them (R165). -/
def commandOf (c : Byte) : State → List Byte → State × List Byte :=
  match c.toNat with
  | 0x01 => State.identify
  | 0x02 => State.readStatus
  | 0x03 => State.readLink
  | 0x04 => State.readProgramme
  | 0x05 => State.readSlice
  | 0x10 => State.readEntries
  | 0x11 => State.writeEntries
  | 0x12 => State.fillEntries
  | 0x18 => State.takeCommandOf
  | 0x19 => State.cancelTake
  | 0x20 => State.setDelay
  | 0x21 => State.setTarget
  | 0x22 => State.setTrim
  | 0x28 => State.mute
  | 0x29 => State.unmute
  | 0x30 => State.ackAlarm
  | 0x31 => State.enableRule
  | 0x32 => State.disableRule
  | 0x38 => State.restorePrimary
  | 0x40 => State.resetIntegrator
  | 0x41 => State.readContexts
  | 0x42 => State.loadContexts
  | 0x48 => State.resetDomains
  | _ => State.unknownCode

/-- The executor's turn of a house frame, whatever the head command is (R158): what a frame still owes as it ends. -/
def State.executorTurnTaken (s : State) : State :=
  match s.port.commands with
  | [] => s.heldReplyPlaced
  | m :: _ => (s.heldReplyPlaced).execute (fun _ => true) (commandOf m.code)

/-- IDENTIFY. -/
def execIdentify (s : State) : Host.Outcome State Fault Refusal := .next (s.execute (isCode 0x01) State.identify)
/-- READ_STATUS. -/
def execReadStatus (s : State) : Host.Outcome State Fault Refusal := .next (s.execute (isCode 0x02) State.readStatus)
/-- READ_LINK. -/
def execReadLink (s : State) : Host.Outcome State Fault Refusal := .next (s.execute (isCode 0x03) State.readLink)
/-- READ_PROGRAMME. -/
def execReadProgramme (s : State) : Host.Outcome State Fault Refusal :=
  .next (s.execute (isCode 0x04) State.readProgramme)
/-- READ_SLICE. -/
def execReadSlice (s : State) : Host.Outcome State Fault Refusal := .next (s.execute (isCode 0x05) State.readSlice)
/-- READ_ENTRIES. -/
def execReadEntries (s : State) : Host.Outcome State Fault Refusal := .next (s.execute (isCode 0x10) State.readEntries)
/-- WRITE_ENTRIES. -/
def execWriteEntries (s : State) : Host.Outcome State Fault Refusal := .next (s.execute (isCode 0x11) State.writeEntries)
/-- FILL_ENTRIES. -/
def execFillEntries (s : State) : Host.Outcome State Fault Refusal := .next (s.execute (isCode 0x12) State.fillEntries)
/-- TAKE. -/
def execTake (s : State) : Host.Outcome State Fault Refusal := .next (s.execute (isCode 0x18) State.takeCommandOf)
/-- CANCEL_TAKE. -/
def execCancelTake (s : State) : Host.Outcome State Fault Refusal := .next (s.execute (isCode 0x19) State.cancelTake)
/-- SET_DELAY. -/
def execSetDelay (s : State) : Host.Outcome State Fault Refusal := .next (s.execute (isCode 0x20) State.setDelay)
/-- SET_TARGET. -/
def execSetTarget (s : State) : Host.Outcome State Fault Refusal := .next (s.execute (isCode 0x21) State.setTarget)
/-- SET_TRIM. -/
def execSetTrim (s : State) : Host.Outcome State Fault Refusal := .next (s.execute (isCode 0x22) State.setTrim)
/-- MUTE. -/
def execMute (s : State) : Host.Outcome State Fault Refusal := .next (s.execute (isCode 0x28) State.mute)
/-- UNMUTE. -/
def execUnmute (s : State) : Host.Outcome State Fault Refusal := .next (s.execute (isCode 0x29) State.unmute)
/-- ACK_ALARM. -/
def execAckAlarm (s : State) : Host.Outcome State Fault Refusal := .next (s.execute (isCode 0x30) State.ackAlarm)
/-- ENABLE_RULE. -/
def execEnableRule (s : State) : Host.Outcome State Fault Refusal := .next (s.execute (isCode 0x31) State.enableRule)
/-- DISABLE_RULE. -/
def execDisableRule (s : State) : Host.Outcome State Fault Refusal := .next (s.execute (isCode 0x32) State.disableRule)
/-- RESTORE_PRIMARY. -/
def execRestorePrimary (s : State) : Host.Outcome State Fault Refusal :=
  .next (s.execute (isCode 0x38) State.restorePrimary)
/-- RESET_INTEGRATOR. -/
def execResetIntegrator (s : State) : Host.Outcome State Fault Refusal :=
  .next (s.execute (isCode 0x40) State.resetIntegrator)
/-- READ_CONTEXT. -/
def execReadContext (s : State) : Host.Outcome State Fault Refusal := .next (s.execute (isCode 0x41) State.readContexts)
/-- LOAD_CONTEXT. -/
def execLoadContext (s : State) : Host.Outcome State Fault Refusal := .next (s.execute (isCode 0x42) State.loadContexts)
/-- RESET_DOMAINS. -/
def execResetDomains (s : State) : Host.Outcome State Fault Refusal := .next (s.execute (isCode 0x48) State.resetDomains)
/-- UNKNOWN_CODE. -/
def execUnknownCode (s : State) : Host.Outcome State Fault Refusal := .next (s.execute isUnknown State.unknownCode)

end Sys2Proof.Machine
end

