-- ==== Sys2Proof/Machine/HouseFrame.lean ====
section
/-! DEFINITION. SLICE BOUNDARY and HOUSE FRAME: the boundary's work in every block, and a house frame that ends and the next
that begins (log entries 2 and 3). -/

namespace Sys2Proof.Machine

/-! ### The slice boundary (R3, R79, R84, R86 to R93, R100 to R102, R122) -/

/-- The loudness unit and the decision step at a boundary, for one programme (R86, R89 to R93, R100 to R102). -/
def State.programmeBoundary (s : State) (p : ProgId) : State :=
  match s.record p with
  | none => s
  | some r =>
    let s := s.setLoud p (boundaryLoud r (s.programmePower r.members) s.loud[p])
    s.setGain p (decideGain r s.loud[p] s.tb.hfc (s.lookahead p) s.gain[p])

/-- The slice index raised, and the weighting coefficients copied (R3, R79). -/
def State.raiseSlice (s : State) : State :=
  { s with tb := { s.tb with slice := s.tb.slice + 1#32 }, frame := { s.frame with boundaryDue := false },
           weights := s.tables.weighting }

/-- The measurement, loudness and decision work of a boundary (R79, R84, R86 to R93, R100 to R102). -/
def State.boundaryWork (s : State) : State :=
  forProgs State.programmeBoundary (s.raiseSlice.rollRecords s.tb.slice)

/-- SLICE BOUNDARY (R3, R122). -/
def State.sliceBoundary (s : State) : State := if s.frame.boundaryDue then s.boundaryWork.evaluateBoundary else s

/-! ### What a house frame still owes as it ends (log entry 3) -/

/-- The converter steps that are still due, in the order of the opcode table. -/
def State.settleLink (s : State) (l : LinkId) : State :=
  ((((((s.leaveDark l).acquisitionEnd l).unsupportedBlockEnd l).directAcquisitionEnd l).servoUpdate l).spliceJump
    l).spliceEnd l

/-- The steps that are still due in the house frame in progress, taken in a fixed order; each acts only when it is due. -/
def State.settleFrame (s : State) : State :=
  let s := s.takeSwap
  let s := forLinks State.settleLink s
  let s := s.sliceBoundary.settleAlarms
  let s := forProgs (fun s p => (s.queueService p).rampStep p) s
  let s := forChannels (fun s c => ((s.slewStep c).cutJump c).cutEnd c) s
  let s := s.completeCopy
  let s := s.setPort s.port.assemblerTimeout
  s.executorTurnTaken.messageBoundary

/-! ### The audio of a house frame -/

/-- The channel sample of a frame: the converter's output in the slot of the source selected as the frame began (R22). -/
def State.channelSample (s : State) (c : ChannelId) : Sample :=
  match s.frame.selected[c] with
  | some src => s.cv[src.link].last[src.slot]
  | none => 0#24

/-- The line output of a channel (R59). -/
def State.channelLine (s : State) (c : ChannelId) : Sample :=
  lineOutput s.store (s.regionOf c) s.lines[c] (s.channelSample c)

/-- The output sample of a channel (R109). -/
def State.channelOutput (s : State) (c : ChannelId) : Sample := s.outputSample c (s.channelLine c)

/-- The measurement tap, the line's write, and the count of a saturated output for one channel (R59, R82, R83). -/
def State.accessChannel (clips : Vector Bool 32) (s : State) (c : ChannelId) : State :=
  let x := s.channelSample c
  let s := s.setMeas c (countClip clips[c] (tapMeas s.weights x s.meas[c]))
  let s := { s with store := writeLine s.store (s.regionOf c) s.lines[c] x }
  s.setLine c (accessLine (s.regionOf c) s.lines[c])

/-- An outbound slot: zero and invalid when SILENT (R29). -/
def slotOf (outs : Vector Sample 32) (e : Option ChannelId) : SlotCell :=
  match e with
  | some c => { sample := outs[c], valid := true }
  | none => { sample := 0#24, valid := false }

/-- The 16 slots of a house link that begin at an OUTPUT_MAP entry (R29). -/
def State.outSlots (s : State) (outs : Vector Sample 32) (first : Nat) : List SlotCell :=
  (List.range 16).map fun i => slotOf outs s.active.outputMap[Fin.ofNat 32 (first + i)]

/-- The audio of the house frame in progress, from the router to the two house links (R22, R29, R30, R59, R80, R82, R83,
R107 to R109, R184). -/
def State.formAudio (s : State) : State :=
  let outs : Vector Sample 32 := Vector.ofFn s.channelOutput
  let clips : Vector Bool 32 := Vector.ofFn fun c => s.outputClips c (s.channelLine c)
  let s' := forChannels (State.accessChannel clips) s
  let f := s.frame
  { s' with h0 := buildFrame (s.outSlots outs 0) f.service f.serviceStart f.maj f.min f.ntc,
            h1 := buildFrame (s.outSlots outs 16) [] false f.maj f.min f.ntc }

/-- Every region of the active bank lies inside the delay store (section 4.1). -/
def State.storeFits (s : State) : Bool :=
  allChannels.all fun c => match s.regionOf c with
    | some r => decide (r.base + r.count ≤ 1024)
    | none => true

/-! ### A house frame begins (R3) -/

/-- The converter of a link as a house frame begins (R33, R34, R37, R42 to R46). -/
def State.beginLink (s : State) (l : LinkId) : State :=
  s.setCv l (beginConv s.tables.filters (s.modeOf l) (s.rx[l].state == .framed) s.tb.slice s.cv[l])

/-- A programme's gain state as a house frame begins (R107, R111). -/
def State.beginProgramme (s : State) (p : ProgId) : State :=
  match s.record p with
  | some r => s.setGain p (beginGain r s.gain[p])
  | none => s

/-- What a house frame latches as it begins: the selected sources (R22), the alarm line states (R135), and which of its
steps are to come (R3, R148, R158). -/
def State.latchFrame (s : State) : State :=
  s.setFrame { s.frame with selected := Vector.ofFn s.selectedOf, maj := s.lineDriven .major, min := s.lineDriven .minor,
                            ntc := s.lineDriven .notice, boundaryDue := s.tb.phase == 0,
                            executorTurn := s.port.holding.isSome || !s.port.commands.isEmpty,
                            copyDue := s.tables.bankState == .copying && s.tables.copyPos == 103 }

/-- A house frame begins at boundary `b` (R3, R148, R160). -/
def State.openFrame (s : State) (b : Nat) : State :=
  let s := s.setTb (beginFrame b s.tb)
  let s := forLinks State.beginLink s
  let s := forChannels (fun s c => s.setLine c (beginLine s.lines[c])) s
  let s := forProgs State.beginProgramme s
  let s := s.latchFrame
  (s.setTables (copyBack s.tables)).beginArbiter

/-- HOUSE FRAME (R3): at the placed boundary the frame in progress ends, with what it still owes and with its audio, and the
next begins. With no boundary placed it is not due. -/
def State.houseFrame (s : State) : Host.Outcome State Fault Refusal :=
  let t := settleTimebase s.tb
  match t.boundary with
  | none => .next (s.setTb t)
  | some b =>
    let s := (s.setTb t).settleFrame
    if s.storeFits then .next (s.formAudio.openFrame b) else .fault .outsideStore

/-- HOUSE_FRAME. -/
def execHouseFrame (s : State) : Host.Outcome State Fault Refusal := s.houseFrame
/-- SLICE_BOUNDARY. -/
def execSliceBoundary (s : State) : Host.Outcome State Fault Refusal := .next s.sliceBoundary

end Sys2Proof.Machine
end

