-- ==== Sys2Proof/Machine/Dispatch.lean ====
section
/-! DEFINITION. One arm for each row of the opcode table, each one direct call of its meaning. -/

namespace Sys2Proof.Machine

/-- The effect of a command on everything but the queue of waiting commands. -/
def exec (i : Instr) (s : State) : Host.Outcome State Fault Refusal :=
  match i with
  | .hardwareReset cause rate96 addr mlk => Sys2Proof.Machine.execHardwareReset cause rate96 addr mlk s
  | .houseFrame => Sys2Proof.Machine.execHouseFrame s
  | .refPulse tick => Sys2Proof.Machine.execRefPulse tick s
  | .expectedInstantReached => Sys2Proof.Machine.execExpectedInstantReached s
  | .acceptanceWindowClose => Sys2Proof.Machine.execAcceptanceWindowClose s
  | .pulsesLost => Sys2Proof.Machine.execPulsesLost s
  | .goodCountComplete => Sys2Proof.Machine.execGoodCountComplete s
  | .refinementBlockComplete => Sys2Proof.Machine.execRefinementBlockComplete s
  | .sliceBoundary => Sys2Proof.Machine.execSliceBoundary s
  | .lineTransition l => Sys2Proof.Machine.execLineTransition l s
  | .activityTimeout l => Sys2Proof.Machine.execActivityTimeout l s
  | .alignmentWordFound l look => Sys2Proof.Machine.execAlignmentWordFound l look s
  | .linkFrame l f => Sys2Proof.Machine.execLinkFrame l f s
  | .assemblerTimeout => Sys2Proof.Machine.execAssemblerTimeout s
  | .leaveDark l => Sys2Proof.Machine.execLeaveDark l s
  | .acquisitionEnd l => Sys2Proof.Machine.execAcquisitionEnd l s
  | .unsupportedBlockEnd l => Sys2Proof.Machine.execUnsupportedBlockEnd l s
  | .directAcquisitionEnd l => Sys2Proof.Machine.execDirectAcquisitionEnd l s
  | .servoUpdate l => Sys2Proof.Machine.execServoUpdate l s
  | .spliceJump l => Sys2Proof.Machine.execSpliceJump l s
  | .spliceEnd l => Sys2Proof.Machine.execSpliceEnd l s
  | .slewStep c => Sys2Proof.Machine.execSlewStep c s
  | .cutJump c => Sys2Proof.Machine.execCutJump c s
  | .cutEnd c => Sys2Proof.Machine.execCutEnd c s
  | .queueService p => Sys2Proof.Machine.execQueueService p s
  | .rampStep p => Sys2Proof.Machine.execRampStep p s
  | .alarmRaise r => Sys2Proof.Machine.execAlarmRaise r s
  | .alarmTimerOut r => Sys2Proof.Machine.execAlarmTimerOut r s
  | .takeSwap => Sys2Proof.Machine.execTakeSwap s
  | .copyBackComplete => Sys2Proof.Machine.execCopyBackComplete s
  | .heldReplyPlaced => Sys2Proof.Machine.execHeldReplyPlaced s
  | .messageBoundary => Sys2Proof.Machine.execMessageBoundary s
  | .identify => Sys2Proof.Machine.execIdentify s
  | .readStatus => Sys2Proof.Machine.execReadStatus s
  | .readLink => Sys2Proof.Machine.execReadLink s
  | .readProgramme => Sys2Proof.Machine.execReadProgramme s
  | .readSlice => Sys2Proof.Machine.execReadSlice s
  | .readEntries => Sys2Proof.Machine.execReadEntries s
  | .writeEntries => Sys2Proof.Machine.execWriteEntries s
  | .fillEntries => Sys2Proof.Machine.execFillEntries s
  | .take => Sys2Proof.Machine.execTake s
  | .cancelTake => Sys2Proof.Machine.execCancelTake s
  | .setDelay => Sys2Proof.Machine.execSetDelay s
  | .setTarget => Sys2Proof.Machine.execSetTarget s
  | .setTrim => Sys2Proof.Machine.execSetTrim s
  | .mute => Sys2Proof.Machine.execMute s
  | .unmute => Sys2Proof.Machine.execUnmute s
  | .ackAlarm => Sys2Proof.Machine.execAckAlarm s
  | .enableRule => Sys2Proof.Machine.execEnableRule s
  | .disableRule => Sys2Proof.Machine.execDisableRule s
  | .restorePrimary => Sys2Proof.Machine.execRestorePrimary s
  | .resetIntegrator => Sys2Proof.Machine.execResetIntegrator s
  | .readContext => Sys2Proof.Machine.execReadContext s
  | .loadContext => Sys2Proof.Machine.execLoadContext s
  | .resetDomains => Sys2Proof.Machine.execResetDomains s
  | .unknownCode => Sys2Proof.Machine.execUnknownCode s

end Sys2Proof.Machine
end

