-- ==== Sys2Proof/Safety.lean ====
section
/-! DEFINITION. What counts as a sound state of the part: the properties that the spec states of every state it can be in, and
the words in which the statements about commands are put. -/

namespace Sys2Proof.Safety

open Sys2Proof.Machine

/-! ### Properties of every state -/

/-- Every management queue holds at most its capacity (R156, R157, R159, R137). -/
def QueuesBounded (s : State) : Prop :=
  s.port.relay.length ≤ 8 ∧ s.port.commands.length ≤ 4 ∧ s.port.replies.length ≤ 8 ∧ s.port.notices.length ≤ 16

/-- Each gain schedule queue holds at most 4 entries (R102). -/
def GainQueuesBounded (s : State) : Prop := ∀ p : ProgId, s.gain[p].queue.length ≤ 4

/-- G_tgt of every present programme lies within the limits of its active record (R106). -/
def GainInLimits (s : State) : Prop :=
  ∀ (p : ProgId) (r : ProgRecord), s.record p = some r →
    -(r.cutMax : Int) ≤ s.gain[p].tgt ∧ s.gain[p].tgt ≤ r.boostMax

/-- Both delays of every line lie below its region's length, and are 0 without a region (R58, R61). -/
def LinesInRegions (s : State) : Prop :=
  ∀ c : ChannelId, s.lines[c].cur ≤ regionLength (s.regionOf c) - 1 ∧ s.lines[c].tgt ≤ regionLength (s.regionOf c) - 1

/-- No channel is a member of two present programmes of the bank, and no two of its regions share a page (R144). -/
def BankSound (b : Routing) : Prop :=
  (∀ (c : ChannelId) (p q : ProgId) (r r' : ProgRecord), b.programmes[p] = some r → b.programmes[q] = some r' →
    r.lists c = true → r'.lists c = true → p = q) ∧
  (∀ c d : ChannelId, c ≠ d → sharePage b.regions[c] b.regions[d] = false)

/-- The active bank is sound, and so is a standby bank that is armed to be taken (R144). -/
def BanksSound (s : State) : Prop :=
  BankSound s.active ∧ (s.tables.bankState = .armed → BankSound (standbyBank s.tables))

/-- A channel's source state is other than PRIMARY only with a backup source in its active entry; a channel in a switched
set is in BACKUP, and stands in the set of one rule at most (R134). -/
def SourcesSound (s : State) : Prop :=
  (∀ c : ChannelId, s.sources[c] ≠ .primary → s.active.slotMap[c].backup ≠ none) ∧
  (∀ (r : RuleId) (c : ChannelId), hasMember s.alarm.rules[r].switched c = true → s.sources[c] = .backup) ∧
  (∀ (r q : RuleId) (c : ChannelId), hasMember s.alarm.rules[r].switched c = true →
    hasMember s.alarm.rules[q].switched c = true → r = q)

/-- A rule's number is in a programme's reason set exactly when the programme is in the rule's muted set, and a programme is
in it only while the rule's action is MUTE, the rule is raised and the programme is present (R131). The last two clauses are of
the model's own mark: a rule that is due to be raised is not raised already, and no rule is due twice (log entry 12). -/
def ReasonsSound (s : State) : Prop :=
  (∀ (r : RuleId) (p : ProgId), hasMember s.alarm.rules[r].muted p = true →
    s.tables.ruleRecords[r].action = .mute ∧ raised s.alarm.rules[r].state = true ∧ s.present p = true) ∧
  (∀ (r : RuleId) (p : ProgId), s.present p = true →
    hasMember s.gain[p].reasons r = hasMember s.alarm.rules[r].muted p) ∧
  (∀ d ∈ s.alarm.due, d.kind = .raising → raised s.alarm.rules[d.rule].state = false) ∧
  (s.alarm.due.map (·.rule)).Nodup

/-- Every region of both banks lies inside the delay store (R57). -/
def RegionsFit (s : State) : Prop :=
  ∀ (c : ChannelId) (r : Region),
    s.tables.bank0.regions[c] = some r ∨ s.tables.bank1.regions[c] = some r → r.base + r.count ≤ 1024

/-- The delay store and the filter coefficients are in their canonical form. -/
def StoresCanonical (s : State) : Prop := cellsWf 0#24 s.store = true ∧ cellsWf 0 s.tables.filters = true

/-- What a bank's programme records may list: at most 8 members, of weights at most 31 (R141). -/
def MembersInRange (b : Routing) : Prop :=
  ∀ (p : ProgId) (r : ProgRecord), b.programmes[p] = some r → r.members.length ≤ 8 ∧ ∀ m ∈ r.members, m.weight ≤ 31

/-- The measurement keeps its bounds: the slice phase is below N_slice, a building record holds at most 2^34 for each frame
that it has measured, a mean square is at most 2^34, and a history holds powers of at most the largest programme power (R82,
R84, R86, R89). -/
def MeasurementBounded (s : State) : Prop :=
  s.tb.phase < sliceLength s.tb.rate96 ∧
  (∀ c : ChannelId,
    s.meas[c].building.acc ≤ (if s.frame.boundaryDue then sliceLength s.tb.rate96 else s.tb.phase) * 2 ^ 34 ∧
    s.meas[c].latest.ms ≤ 2 ^ 34) ∧
  (∀ (p : ProgId) (x : Nat), x ∈ s.loud[p].history → x ≤ largestPower) ∧
  MembersInRange s.tables.bank0 ∧ MembersInRange s.tables.bank1

/-- The integrator of every programme keeps C at most 65,535, and S at most C times the largest programme power, with one
power more once a halving can have rounded (R92, R97). -/
def IntegratorsBounded (s : State) : Prop :=
  ∀ p : ProgId, s.loud[p].count ≤ 65535 ∧
    s.loud[p].sum ≤ s.loud[p].count * largestPower + (if s.loud[p].count < 32768 then 0 else largestPower)

/-! ### Words of the statements -/

/-- The executor is about to take the command `m` with this code from the head of the command queue (R158). -/
def Ready (s : State) (m : Message) (rest : List Message) (code : Byte) : Prop :=
  s.port.commands = m :: rest ∧ s.frame.executorTurn = true ∧ s.port.holding = none ∧ m.code = code

/-- The channel's active SLOT_MAP entry names a primary source on the link. -/
def primaryLink (s : State) (c : ChannelId) (l : LinkId) : Prop :=
  ∃ src : Source, s.active.slotMap[c].primary = some src ∧ src.link = l

/-- The present programme lists the channel as a member, in the active bank. -/
def Lists (s : State) (p : ProgId) (c : ChannelId) : Prop := ∃ r : ProgRecord, s.record p = some r ∧ r.lists c = true

/-- The selected source of the channel lies on the link. -/
def SelectsOn (s : State) (c : ChannelId) (l : LinkId) : Prop := ∃ src : Source, s.selectedOf c = some src ∧ src.link = l

/-- The link's converter is LOCKED or SPLICING. -/
def Runs (s : State) (l : LinkId) : Prop := s.cv[l].state = .locked ∨ s.cv[l].state = .splicing

/-! #### Delay lines (sections 4.3, 4.4) -/

/-- The table of R61: the line of the channel aims where the active bank and the converter latency put it, with its two
flags. -/
def AimsAt (s : State) (c : ChannelId) (l : Line) : Prop :=
  match s.recordOf c, s.regionOf c with
  | none, _ => l.tgt = 0 ∧ l.short = false ∧ l.clamped = false
  | some r, none => l.tgt = 0 ∧ (l.short = true ↔ r.dt = 0 ∧ 0 < s.latencyOf c) ∧ (l.clamped = true ↔ 0 < r.dt)
  | some r, some g =>
    l.tgt = min (r.dt - s.latencyOf c) (g.count * 1024 - 1) ∧ (l.short = true ↔ r.dt < s.latencyOf c) ∧
      (l.clamped = true ↔ g.count * 1024 - 1 < r.dt - s.latencyOf c)

/-- The line `l` with the target and the flags of `l'`. -/
def aimed (l l' : Line) : Line := { l with tgt := l'.tgt, short := l'.short, clamped := l'.clamped }

/-- The line `l` aimed as `l'` is, in a fall from a fader at 64 (R63, R68). -/
def falling (l l' : Line) : Line := { aimed l l' with move := .cutFall, g := 64, slew := 0, jumpDue := false }

/-- A CUT-class recompute takes the line of the channel from `l` to `l'`: in IDLE a difference starts a CUT (R63), and so does
a change of source in any case (R70); a SLEW is cancelled (R68); a FALL goes on to the new target, and a RISE becomes a FALL at
the fader where it stands (R67). -/
def CutAnswer (s : State) (c : ChannelId) (l l' : Line) (sourceChange : Bool) : Prop :=
  AimsAt s c l' ∧
  match l.move with
  | .idle => l' = if sourceChange = true ∨ l'.tgt ≠ l.cur then falling l l' else aimed l l'
  | .slew => l' = falling l l'
  | .cutFall => l' = aimed l l'
  | .cutRise => l' = { aimed l l' with move := .cutFall, jumpDue := false }

/-- A SLEW-class recompute takes the line of the channel from `l` to `l'`: in IDLE a difference starts a SLEW with the count at 0
(R63); a SLEW is retargeted, and over when the new target is the delay in use (R65; its count is then 0 by log entry 32); a CUT
keeps its phase and takes the new target (R68). -/
def SlewAnswer (s : State) (c : ChannelId) (l l' : Line) : Prop :=
  AimsAt s c l' ∧
  match l.move with
  | .idle => l' = if l'.tgt ≠ l.cur then { aimed l l' with move := .slew, slew := 0 } else aimed l l'
  | .slew => l' = if l'.tgt = l.cur then { aimed l l' with move := .idle, slew := 0 } else aimed l l'
  | .cutFall => l' = aimed l l'
  | .cutRise => l' = aimed l l'

/-- The line of the channel is set to its target without a move, to prime again, with the write pointer at `w` (R58, R76). -/
def SetAtOnce (s : State) (c : ChannelId) (l l' : Line) (w : Nat) : Prop :=
  AimsAt s c l' ∧
  l' = { aimed l l' with wptr := w, v := 0, cur := l'.tgt, move := .idle, slew := 0, g := 64, jumpDue := false,
                         readAt := l'.tgt, readAlso := none }

/-- Between two states the line of the channel answers a change of its selected source with a CUT, and stands without one
(R23, R70). -/
def LineFollows (s t : State) (c : ChannelId) : Prop :=
  (t.selectedOf c ≠ s.selectedOf c → CutAnswer t c s.lines[c] t.lines[c] true) ∧
  (t.selectedOf c = s.selectedOf c → t.lines[c] = s.lines[c])

/-- What an entry to LOCKED of a link's converter leaves (R35, R45, R26, R71): the converter stands as `v`, the other converters
as they were, each channel that waited for its primary on the link is back in PRIMARY with a CUT of its line, a new L_c reaches
the lines of the channels whose selected source lies on the link, and nothing else has changed. -/
def LockEntry (s t : State) (l : LinkId) (v : Conv) : Prop :=
  t.cv[l] = v ∧ (∀ k : LinkId, k ≠ l → t.cv[k] = s.cv[k]) ∧
  (∀ c : ChannelId, s.sources[c] = .pending → primaryLink s c l → t.sources[c] = .primary) ∧
  (∀ c : ChannelId, ¬ (s.sources[c] = .pending ∧ primaryLink s c l) → t.sources[c] = s.sources[c]) ∧
  (∀ c : ChannelId,
    (t.selectedOf c ≠ s.selectedOf c → CutAnswer t c s.lines[c] t.lines[c] true) ∧
    (t.selectedOf c = s.selectedOf c → v.lc ≠ s.cv[l].lc → SelectsOn s c l → CutAnswer t c s.lines[c] t.lines[c] false) ∧
    (t.selectedOf c = s.selectedOf c → v.lc = s.cv[l].lc ∨ ¬ SelectsOn s c l → t.lines[c] = s.lines[c])) ∧
  t = { s with cv := t.cv, sources := t.sources, lines := t.lines }

/-! #### Alarm rules (sections 7.4, 7.6) -/

/-- The value that a notice of a rule reads, by the rule's kind (the table of R136). -/
def valueRead (s : State) (e : RuleRecord) : Int :=
  let c : ChannelId := Fin.ofNat 32 e.subject
  let p : ProgId := Fin.ofNat 8 e.subject
  let l : LinkId := Fin.ofNat 4 e.subject
  let level : Int := match s.record p, s.loud[p].window with
    | some r, some w => w.raw + r.offset
    | _, _ => -2147483648
  let rate : Nat := if s.tb.rate96 then 96000 else 48000
  match e.kind with
  | .silence => s.meas[c].latest.peak
  | .overload => s.meas[c].latest.fsCount
  | .outputClip => s.meas[c].latest.outClips
  | .loudnessHigh => level
  | .loudnessLow => level
  | .link => match s.cv[l].state with
    | .dark => 0
    | .acquiring => 1
    | .unsupported => 2
    | .locked => 3
    | .splicing => 4
  | .slip => s.cv[l].slips
  | .ratioLimit =>
    if s.modeOf l = .direct ∧ (s.cv[l].state = .locked ∨ s.cv[l].state = .splicing) then rate
    else ((2 * (s.cv[l].qInt * rate) + 16777216) / 33554432 : Nat)
  | .delay => match s.record p with
    | some r => (r.members.filter fun m => s.lines[m.channel].short || s.lines[m.channel].clamped).length
    | none => 0
  | .reference => match s.tb.ref with
    | .absent => 0
    | .locked => 1
    | .holdover => 2
    | .regain => 3

/-- The port after a notice of a rule has been made from its record (R136, R137): it joins a queue of fewer than 16, and is
otherwise lost and counted; its sequence number is used either way. -/
def noted (s : State) (p : Port) (r : RuleId) (event : NoticeEvent) (value : Int) : Port :=
  let e := s.tables.ruleRecords[r]
  if p.notices.length < 16 then
    { p with
        seq := p.seq + 1#8,
        notices := p.notices ++ [{ seq := p.seq, rule := r, event := event, severity := e.severity, kind := e.kind,
                                   subject := e.subject, slice := s.tb.slice, value := value }] }
  else { p with seq := p.seq + 1#8, noticesLost := min 255 (p.noticesLost + 1) }

/-- The port after the notices of return at the head of a list of due rules: those before the first raise or timer-out (R136,
log entry 12). -/
def returnsNoted (s : State) (p : Port) (ds : List DueRule) : Port :=
  (ds.takeWhile fun d => d.kind == .returning).foldl (fun p d => noted s p d.rule .raised d.value) p

/-- What stays due of a list of due rules once the notices of return at its head have been made. -/
def stillDue (ds : List DueRule) : List DueRule := ds.dropWhile fun d => d.kind == .returning

/-- A MUTE action of the record names the programme (the table of R131). -/
def Names (s : State) (e : RuleRecord) (p : ProgId) : Prop :=
  let c : ChannelId := Fin.ofNat 32 e.subject
  let onLink : Prop := ∃ (r : ProgRecord) (m : Member), s.record p = some r ∧ m ∈ r.members ∧
    SelectsOn s m.channel (Fin.ofNat 4 e.subject)
  match e.kind with
  | .silence | .overload | .outputClip => Lists s p c ∧ ∀ q : ProgId, q < p → ¬ Lists s q c
  | .loudnessHigh | .loudnessLow | .delay => p = Fin.ofNat 8 e.subject ∧ s.record p ≠ none
  | .link | .slip | .ratioLimit => onLink
  | .reference => s.record p ≠ none

/-- A BACKUP action of the record aims at the channel (the table of R132). -/
def Aims (s : State) (e : RuleRecord) (c : ChannelId) : Prop :=
  match e.kind with
  | .silence | .overload | .outputClip => c = Fin.ofNat 32 e.subject
  | .loudnessHigh | .loudnessLow | .delay => Lists s (Fin.ofNat 8 e.subject) c
  | .link | .slip | .ratioLimit => primaryLink s c (Fin.ofNat 4 e.subject)
  | .reference => True

/-- The three conditions under which the router switches a channel that a BACKUP action aims at (R24). -/
def Switchable (s : State) (c : ChannelId) : Prop :=
  s.sources[c] = .primary ∧ ∃ src : Source, s.active.slotMap[c].backup = some src ∧ Runs s src.link

/-- Where a release leaves a channel of a switched set (R25). -/
def revertedSource (s : State) (c : ChannelId) : SourceState :=
  if s.sources[c] = .backup ∧ s.active.slotMap[c].manual = false then
    match s.active.slotMap[c].primary with
    | some src => if s.cv[src.link].state = .locked then .primary else .pending
    | none => .pending
  else s.sources[c]

/-- The actions of the rules that `gone` names have been released and those of the others have not (R133): their numbers have
left the reason sets of the present programmes of their muted sets, the channels of their switched sets have gone back by their
revert policies, and each line has followed its source. -/
def Released (s t : State) (gone : RuleId → Prop) : Prop :=
  (∀ p : ProgId, t.gain[p] = { s.gain[p] with reasons := t.gain[p].reasons } ∧
    ∀ r : RuleId, hasMember t.gain[p].reasons r = true ↔ hasMember s.gain[p].reasons r = true ∧
      ¬ (gone r ∧ hasMember s.alarm.rules[r].muted p = true ∧ s.record p ≠ none)) ∧
  (∀ c : ChannelId,
    ((∃ r : RuleId, gone r ∧ hasMember s.alarm.rules[r].switched c = true) → t.sources[c] = revertedSource s c) ∧
    (¬ (∃ r : RuleId, gone r ∧ hasMember s.alarm.rules[r].switched c = true) → t.sources[c] = s.sources[c]) ∧
    LineFollows s t c)

/-- The rule has gone to QUIET with its actions released and a CLEARED notice of its record (R133, R136), and nothing else has
changed but the tables. -/
def Cleared (s t : State) (r : RuleId) : Prop :=
  Released s t (fun q => q = r) ∧
  t.alarm.rules[r] = { state := .quiet, timer := 0, ack := false, muted := 0#8, switched := 0#32 } ∧
  (∀ q : RuleId, q ≠ r → t.alarm.rules[q] = s.alarm.rules[q]) ∧ t.alarm.due = s.alarm.due ∧
  t.port = noted s s.port r .cleared (valueRead s s.tables.ruleRecords[r]) ∧
  t = { s with tables := t.tables, gain := t.gain, alarm := t.alarm, sources := t.sources, lines := t.lines,
               port := t.port }

/-! #### Tables (sections 8.7, 10.2) -/

/-- The filter set that an entry of FILTER_SETS belongs to is in use (R50, R168). -/
def InUse (s : State) (entry : Nat) : Prop :=
  ∃ (l : LinkId) (set : SetId), Runs s l ∧ s.modeOf l ≠ .direct ∧ s.cv[l].filter = some set ∧ set.val = entry / 1536

/-- Entry `k` of a table as it would stand after records have been written from entry `first`. -/
def standing (t : Tables) (name : TableName) (first : Nat) (rs : List Record) (k : Nat) : Record :=
  let old := entryOf t (standbyBank t) name k
  if first ≤ k then rs.getD (k - first) old else old

/-- A write of these records from entry `first` passes every check (R50, R51, R165, R168). -/
def Accepts (s : State) (name : TableName) (first : Nat) (rs : List Record) : Prop :=
  (∀ r ∈ rs, r.table = name ∧ r.valid = true) ∧ first + rs.length ≤ tableSize name ∧
  (banked name = true → s.tables.bankState = .editing) ∧
  (name = .filterSets → ∀ k : Nat, k < rs.length → ¬ InUse s (first + k)) ∧
  (name = .setSelect → ∀ (i j : Fin 4) (x y : SelectEntry), i < j →
    standing s.tables name first rs i.val = .select (some x) → standing s.tables name first rs j.val = .select (some y) →
    x.bound < y.bound)

/-- The records have been written from entry `first` (R140, R168): read back from the standby bank and the unbanked tables,
those entries are the records and every other entry of every table is as it was; the active bank and the bank state stand. A
LINK_CONFIG write reaches the converters, an ALARM_RULES write the alarm engine and what its actions hold, and any other write
nothing but the tables. -/
def Written (s t : State) (name : TableName) (first : Nat) (rs : List Record) : Prop :=
  (∀ (n : TableName) (k : Nat), k < tableSize n → entryOf t.tables (standbyBank t.tables) n k =
    if n = name then standing s.tables name first rs k else entryOf s.tables (standbyBank s.tables) n k) ∧
  activeBank t.tables = activeBank s.tables ∧ t.tables.marker = s.tables.marker ∧
  t.tables.bankState = s.tables.bankState ∧ t.tables.pendingInstant = s.tables.pendingInstant ∧
  t.tables.copyPos = s.tables.copyPos ∧
  (name ≠ .alarmRules → t = { s with tables := t.tables, cv := t.cv }) ∧
  (name ≠ .linkConfig → t.cv = s.cv) ∧
  (∀ l : LinkId, t.cv[l] = if t.modeOf l = s.modeOf l then s.cv[l] else if s.cv[l].state = .dark then s.cv[l] else
    { s.cv[l] with
        state := .dark, rampStart := s.cv[l].last, rampCount := 0, filter := none, leaveDue := false, jumpDue := false }) ∧
  (name = .alarmRules →
    (∀ k : Nat, first ≤ k → k < first + rs.length →
      t.alarm.rules[(Fin.ofNat 32 k : RuleId)].state = .quiet ∧ t.alarm.rules[(Fin.ofNat 32 k : RuleId)].timer = 0 ∧
      t.alarm.rules[(Fin.ofNat 32 k : RuleId)].ack = false) ∧
    t.port.commands = s.port.commands ∧ t.port.replies = s.port.replies ∧ t.port.relay = s.port.relay ∧
    t = { s with tables := t.tables, gain := t.gain, alarm := t.alarm, sources := t.sources, lines := t.lines,
                 port := t.port })

/-- A live adjust has written a field of the programme's record in each bank that has it, and nothing else of the tables
(R149). -/
def Adjusted (t t' : Tables) (p : ProgId) (f : ProgRecord → ProgRecord) : Prop :=
  (∀ q : ProgId,
    t'.bank0.programmes[q] = (if q = p then t.bank0.programmes[p].map f else t.bank0.programmes[q]) ∧
    t'.bank1.programmes[q] = (if q = p then t.bank1.programmes[p].map f else t.bank1.programmes[q])) ∧
  t' = { t with
      bank0 := { t.bank0 with programmes := t'.bank0.programmes },
      bank1 := { t.bank1 with programmes := t'.bank1.programmes } }

end Sys2Proof.Safety
end

