-- ==== Sys2Proof/WellFormed.lean ====
section
/-! DEFINITION. When a command is well formed. The operand types already bound every link, channel, programme and rule
number and the strap pins; what is left to check is that a link frame carries its 16 audio slots (section 11.2). -/

namespace Sys2Proof

/-- A link frame has 16 audio slots, so 439 cells (section 11.2). -/
def LinkFrame.wellFormed (f : LinkFrame) : Bool := f.slots.length == 16

/-- A command is well formed when the link frame it carries, if any, is. -/
def Instr.wellFormed : Instr → Bool
  | .linkFrame _ f => f.wellFormed
  | .hardwareReset _ _ _ _ => true
  | .houseFrame => true
  | .refPulse _ => true
  | .expectedInstantReached => true
  | .acceptanceWindowClose => true
  | .pulsesLost => true
  | .goodCountComplete => true
  | .refinementBlockComplete => true
  | .sliceBoundary => true
  | .lineTransition _ => true
  | .activityTimeout _ => true
  | .alignmentWordFound _ _ => true
  | .assemblerTimeout => true
  | .leaveDark _ => true
  | .acquisitionEnd _ => true
  | .unsupportedBlockEnd _ => true
  | .directAcquisitionEnd _ => true
  | .servoUpdate _ => true
  | .spliceJump _ => true
  | .spliceEnd _ => true
  | .slewStep _ => true
  | .cutJump _ => true
  | .cutEnd _ => true
  | .queueService _ => true
  | .rampStep _ => true
  | .alarmRaise _ => true
  | .alarmTimerOut _ => true
  | .takeSwap => true
  | .copyBackComplete => true
  | .heldReplyPlaced => true
  | .messageBoundary => true
  | .identify => true
  | .readStatus => true
  | .readLink => true
  | .readProgramme => true
  | .readSlice => true
  | .readEntries => true
  | .writeEntries => true
  | .fillEntries => true
  | .take => true
  | .cancelTake => true
  | .setDelay => true
  | .setTarget => true
  | .setTrim => true
  | .mute => true
  | .unmute => true
  | .ackAlarm => true
  | .enableRule => true
  | .disableRule => true
  | .restorePrimary => true
  | .resetIntegrator => true
  | .readContext => true
  | .loadContext => true
  | .resetDomains => true
  | .unknownCode => true

end Sys2Proof
end

