-- ==== Sys2Proof/Certificates/Slice0/Obligations.lean ====
section
/-! DEFINITION. The statements for the provers. -/

open Sys2Proof Sys2Proof.Machine

/-- A step runs the command at the front of the queue. With a command c at the front of the queue of waiting
commands, step is exec of c on the state whose queue is the rest. On an empty queue the block idles (the model's
choice, log entries 1 and 4). -/
def Obligations.StepTakesTheFrontCommand : Prop :=
  (∀ (s : State) (c : Instr) (rest : List Instr), s.pending = c :: rest → step s = exec c { s with pending := rest }) ∧
  (∀ s : State, s.pending = [] → step s = .next s)

/-- HARDWARE_RESET puts every block into its reset state. HARDWARE_RESET completes in every state. It latches the
straps and leaves each block as the reset rules of the chapters say: timebase, receivers, converters with their
rings, both banks, LINK_CONFIG, FILTER_SETS (set 0 a linear interpolator, the others zeros), SET_SELECT,
WEIGHTING and ALARM_RULES with every field of its records, router, lines, weighting states and slice records,
loudness, gain, alarms, assembler, queues and error counts. Every slot of H0 and H1 is zero and invalid, with no
service byte and no alarm driven. The delay store keeps its words. The reset record has the cause and no domain
part. The values of the fields that no rule names are the model's choice (log entry 11). -/
def Obligations.HardwareResetState : Prop :=
  ∀ (s : State) (cause : ResetCause) (rate96 : Bool) (addr : BitVec 6) (mlk : LinkId),
    ∃ t : State, exec (.hardwareReset cause rate96 addr mlk) s = .next t ∧
      t.tb.rate96 = rate96 ∧ t.tb.ref = .absent ∧ t.tb.held = (if rate96 then 262144 else 524288) ∧ t.tb.good = 0 ∧
      t.tb.goodSum = 0 ∧ t.tb.missing = 0 ∧ t.tb.refineCount = 0 ∧ t.tb.refineSum = 0 ∧ t.tb.lastPulse = none ∧
      t.tb.refineFrom = none ∧ t.tb.lost = false ∧ t.tb.hfc = 0#32 ∧ t.tb.phase = 0 ∧ t.tb.slice = 0#32 ∧
      (∀ l : LinkId, t.rx[l].state = .silent ∧ t.rx[l].candidates = 0 ∧ t.rx[l].badRun = 0 ∧ t.rx[l].parityErrors = 0 ∧
        t.rx[l].alignErrors = 0 ∧ t.rx[l].hold = zeroSamples) ∧
      (∀ l : LinkId, t.cv[l].state = .dark ∧ t.cv[l].rampCount = 64 ∧ t.cv[l].last = zeroSamples ∧ t.cv[l].w = 0#32 ∧
        t.cv[l].q0 = 0 ∧ t.cv[l].qInt = 0 ∧ t.cv[l].qApplied = 0 ∧ t.cv[l].filter = none ∧ t.cv[l].g = 64 ∧
        t.cv[l].ring = Vector.replicate 64 zeroSamples ∧ t.cv[l].rInt = 0#32 ∧ t.cv[l].rFrac = 0#24 ∧ t.cv[l].m = 0 ∧
        t.cv[l].n = 0 ∧ t.cv[l].track = 0 ∧ t.cv[l].lc = 0 ∧ t.cv[l].window = 0 ∧ t.cv[l].slips = 0 ∧ t.cv[l].saturations = 0 ∧ t.cv[l].lastSlip = none ∧
        t.tables.linkConfig[l] = { mode := .off, gp := 12, gi := 18 }) ∧
      t.tables.marker = false ∧ t.tables.bankState = .editing ∧ t.tables.pendingInstant = none ∧ t.tables.copyPos = 0 ∧
      t.tables.bank0 = t.tables.bank1 ∧ (∀ p : ProgId, t.tables.bank0.programmes[p] = none) ∧
      (∀ c : ChannelId, t.tables.bank0.slotMap[c] = { primary := none, backup := none, manual := false } ∧
        t.tables.bank0.outputMap[c] = none ∧ t.tables.bank0.regions[c] = none ∧ t.sources[c] = .primary) ∧
      (∀ c : ChannelId, t.lines[c].wptr = 0 ∧ t.lines[c].v = 0 ∧ t.lines[c].cur = 0 ∧ t.lines[c].tgt = 0 ∧
        t.lines[c].move = .idle ∧ t.lines[c].slew = 0 ∧ t.lines[c].g = 64 ∧ t.lines[c].short = false ∧
        t.lines[c].clamped = false ∧ t.meas[c].stage1 = { x1 := 0, x2 := 0, y1 := 0, y2 := 0 } ∧
        t.meas[c].stage2 = { x1 := 0, x2 := 0, y1 := 0, y2 := 0 } ∧
        t.meas[c].building = { acc := 0, peak := 0, fsCount := 0, outClips := 0 } ∧
        t.meas[c].latest = { acc := 0, peak := 0, fsCount := 0, outClips := 0, ms := 0, covers := none }) ∧
      (∀ p : ProgId, t.loud[p] = { history := [], window := none, sum := 0, count := 0 } ∧ t.gain[p].queue = [] ∧
        t.gain[p].tgt = 0 ∧ t.gain[p].app = 0 ∧ t.gain[p].ramp = 0 ∧ t.gain[p].decision = .noLevel ∧
        t.gain[p].gNew = none ∧ t.gain[p].reasons = 0#32 ∧ t.gain[p].command = false ∧ t.gain[p].fader = 64) ∧
      (∀ (set : SetId) (φ : Fin 64) (k : Fin 24), readCell 0 t.tables.filters (set.val * 1536 + φ.val * 24 + k.val) =
        if set = 0 ∧ k = 11 then 4096 * (64 - φ.val : Int) else if set = 0 ∧ k = 12 then 4096 * (φ.val : Int) else 0) ∧
      t.tables.setSelect = #v[some { set := 0, bound := 8388608 }, none, none, none] ∧
      t.weights = t.tables.weighting ∧ t.weights = #v[4194304, 0, 0, 0, 0, 4194304, 0, 0, 0, 0] ∧
      (∀ r : RuleId, t.alarm.rules[r].state = .quiet ∧ t.alarm.rules[r].timer = 0 ∧ t.alarm.rules[r].ack = false ∧
        t.alarm.rules[r].muted = 0#8 ∧ t.alarm.rules[r].switched = 0#32 ∧
        t.tables.ruleRecords[r] = { enabled := false, kind := .silence, subject := 0, threshold := 0, raiseTime := 0,
                                    clearTime := 0, severity := .notice, latch := false, action := .none }) ∧
      t.port.addr = addr ∧ t.port.mlk = mlk ∧ t.port.cause = cause ∧ t.port.domain = none ∧ t.port.relay = [] ∧
      t.port.commands = [] ∧ t.port.replies = [] ∧ t.port.notices = [] ∧ t.port.noticesLost = 0 ∧ t.port.holding = none ∧
      t.port.flight = none ∧ t.port.lastServed = .notice ∧ t.port.seq = 0#8 ∧
      t.port.errors = { crc := 0, header := 0, interrupted := 0, frameFault := 0, timeout := 0, linkLoss := 0,
                        relayOverflow := 0, commandOverflow := 0 } ∧
      t.port.assembler = { collecting := false, buffer := [], expected := none, crc := 0#8, quiet := 0 } ∧
      t.h0 = t.h1 ∧ t.h0.slots = List.replicate 16 { sample := 0#24, valid := false } ∧ t.h0.start = false ∧
      t.h0.present0 = false ∧ t.h0.present1 = false ∧ t.h0.maj = false ∧ t.h0.min = false ∧ t.h0.ntc = false ∧
      t.store = s.store ∧ t.pending = s.pending

/-- HOUSE_FRAME begins the next house frame at its placed boundary, or stops on a region outside the store. With a
boundary placed and every region of both banks inside the store, HOUSE_FRAME completes: the HFC goes up by one
modulo 2^32, the slice phase goes up by one or wraps from N_slice − 1 to 0, and the frame starts at the
boundary. Outside REF_LOCKED the next boundary is placed by the held period and the running remainder, in whole
ticks. The frame marks itself a slice boundary exactly at phase 0, and the executor acts in it exactly when it
holds a reply or the command queue is not empty as the frame begins. Both house links have formed one frame with
the alignment word and even parity, and H1 carries no service bytes. With a boundary placed, HOUSE_FRAME stops
with the fault outsideStore when, after the steps that the frame still owes, a region of the active bank reaches
beyond page 1,023. No bank that the writes accept holds one; the stop is the model's choice (log entry 17). That
the slice phase moves here and the marks of the new frame are set here is the model's (log entries 2, 3 and 16). -/
def Obligations.HouseFrameStarts : Prop :=
  (∀ (s : State) (b : Nat), (settleTimebase s.tb).boundary = some b → Safety.RegionsFit s →
    ∃ t : State, exec .houseFrame s = .next t ∧
      t.tb.hfc = s.tb.hfc + 1#32 ∧ t.tb.frameStart = b ∧ t.tb.rate96 = s.tb.rate96 ∧
      t.tb.phase = (if s.tb.phase < sliceLength s.tb.rate96 - 1 then s.tb.phase + 1 else 0) ∧
      t.frame.boundaryDue = (t.tb.phase == 0) ∧
      t.frame.executorTurn = (t.port.holding.isSome || !t.port.commands.isEmpty) ∧
      (t.tb.ref ≠ .locked →
        t.tb.boundary = some (b + t.tb.held + (settleTimebase s.tb).remainder -
          (b + t.tb.held + (settleTimebase s.tb).remainder) % 256) ∧
        t.tb.remainder = (b + t.tb.held + (settleTimebase s.tb).remainder) % 256) ∧
      (t.tb.ref = .locked → t.tb.boundary = none) ∧
      t.h0.align = alignmentWord ∧ t.h1.align = alignmentWord ∧ evenParity t.h0 = true ∧ evenParity t.h1 = true ∧
      t.h1.start = false ∧ t.h1.present0 = false ∧ t.h1.present1 = false ∧ t.h1.byte0 = 0#8 ∧ t.h1.byte1 = 0#8 ∧
      t.pending = s.pending) ∧
  (∀ (s : State) (b : Nat) (c : ChannelId) (r : Region), (settleTimebase s.tb).boundary = some b →
    (s.setTb (settleTimebase s.tb)).settleFrame.regionOf c = some r → 1024 < r.base + r.count →
    exec .houseFrame s = .fault .outsideStore)

/-- HOUSE_FRAME sends each mapped channel, zero in SILENT slots and the alarm lines, moves the mute faders, latches
the next frame and copies one bank entry. When nothing of the frame in progress is still due, HOUSE_FRAME forms
H0 and H1 from the active OUTPUT_MAP: a slot that names a channel carries that channel's gain stage output with
its valid mark set, a SILENT slot carries zero with the mark clear. The output of a member of a present
programme is round(round(x × M / 2^22) saturated × f / 64), with x the line output, M the multiplier of the
programme's A, the sum of its frame's G_app and trim clamped to [−400, +120], and f its mute fader; a channel in
no present programme leaves as x. The line output is the line sample under the line's fader
(DelayStoreReadsWhatIsWritten says both). The next frame latches each channel's selected source (the primary in
PRIMARY, the backup in BACKUP and PENDING) and, for each present programme, the G_app held and the trim of its
active record, and a queue service is due and no ramp step. The fader of each present programme moves by one,
down while the programme is muted and up to 64 otherwise; the rest of every gain state stands. In COPYING below
copy position 103 the entry at the position is copied into the standby bank, SLOT_MAP first, then OUTPUT_MAP,
PROGRAMMES and REGIONS, and the position goes up by one, with every other standby entry as it was; at 103 the
frame waits for COPY_BACK_COMPLETE. Both links carry the alarm lines as the frame began, and the next frame
latches each line: driven exactly when an enabled rule of its severity is ACTIVE, EASING or HELD. The order in
which a frame's steps are taken and the marks that a frame latches are the model's (log entries 2 and 3). -/
def Obligations.HouseFrameOutputsAndFaders : Prop :=
  ∀ (s : State) (b : Nat) (i : Fin 32), s.tb.boundary = some b → settleTimebase s.tb = s.tb → s.settleFrame = s →
    Safety.RegionsFit s →
    ∃ t : State, exec .houseFrame s = .next t ∧
      (if i.val < 16 then t.h0 else t.h1).slots[i.val % 16]? =
        some (match s.active.outputMap[i] with
          | none => { sample := 0#24, valid := false }
          | some c =>
            let x := lineOutput s.store (s.regionOf c) s.lines[c]
              (match s.frame.selected[c] with
                | some src => s.cv[src.link].last[src.slot]
                | none => 0#24)
            { sample := match programmeOf s.active c with
                | some p => fade (saturate24 (roundDiv (x.toInt * multiplier (clampInt (-400) 120 (s.gain[p].frameApp + s.gain[p].frameTrim))) 4194304)) s.gain[p].fader
                | none => x,
              valid := true }) ∧
      (∀ (p : ProgId) (r : ProgRecord), s.record p = some r →
        t.gain[p] = { s.gain[p] with
          fader := if s.gain[p].reasons ≠ 0#32 ∨ s.gain[p].command = true then s.gain[p].fader - 1
            else min 64 (s.gain[p].fader + 1),
          serviceDue := true, stepDue := false, frameTrim := r.trim, frameApp := s.gain[p].app }) ∧
      (∀ p : ProgId, s.record p = none → t.gain[p] = s.gain[p]) ∧
      (∀ c : ChannelId, t.frame.selected[c] = match s.sources[c] with
        | .primary => s.active.slotMap[c].primary
        | .backup => s.active.slotMap[c].backup
        | .pending => s.active.slotMap[c].backup) ∧
      t.sources = s.sources ∧ t.active = s.active ∧ t.loud = s.loud ∧ t.alarm = s.alarm ∧ t.weights = s.weights ∧
      (t.frame.copyDue = true ↔ s.tables.bankState = .copying ∧ s.tables.copyPos = 103) ∧
      (s.tables.bankState = .copying → s.tables.copyPos < 103 →
        let pos := s.tables.copyPos
        let place : TableName × Nat := if pos < 32 then (.slotMap, pos) else if pos < 64 then (.outputMap, pos - 32)
          else if pos < 72 then (.programmes, pos - 64) else (.regions, pos - 72)
        t.tables.copyPos = pos + 1 ∧ t.frame.copyDue = false ∧ t.tables.bankState = .copying ∧ t.active = s.active ∧
        entryOf t.tables (standbyBank t.tables) place.1 place.2 = entryOf s.tables s.active place.1 place.2 ∧
        ∀ (name : TableName) (k : Nat), k < tableSize name → ¬ (name = place.1 ∧ k = place.2) →
          entryOf t.tables (standbyBank t.tables) name k = entryOf s.tables (standbyBank s.tables) name k) ∧
      (let driven (sev : Severity) : Prop := ∃ r : RuleId, s.tables.ruleRecords[r].enabled = true ∧
         s.tables.ruleRecords[r].severity = sev ∧
         (s.alarm.rules[r].state = .active ∨ s.alarm.rules[r].state = .easing ∨ s.alarm.rules[r].state = .held)
       (t.frame.maj = true ↔ driven .major) ∧ (t.frame.min = true ↔ driven .minor) ∧
       (t.frame.ntc = true ↔ driven .notice)) ∧
      t.h0.maj = s.frame.maj ∧ t.h0.min = s.frame.min ∧ t.h0.ntc = s.frame.ntc ∧
      t.h1.maj = s.frame.maj ∧ t.h1.min = s.frame.min ∧ t.h1.ntc = s.frame.ntc ∧
      (s.tables.bankState = .copying → s.tables.copyPos = 103 → t.tables = s.tables ∧ t.frame.copyDue = true)

/-- REF_PULSE outside REF_LOCKED runs the good count, and its first pulse ends REF_HOLDOVER. In REF_ABSENT and
REF_REGAIN with the good count not yet complete, a pulse with no last pulse becomes the last pulse time.
Otherwise an interval whose difference from the held period (the nominal one in REF_ABSENT) is within floor(held
period / 1,000) adds one to the good count and itself to the good sum, and any other interval returns both to 0;
the pulse becomes the last pulse time. Nothing else changes. In REF_HOLDOVER a pulse moves the monitor to
REF_REGAIN, becomes the last pulse time, and sets the good count and good sum to 0. The held period and
everything else is kept. Times are in the model's units (log entry 6). -/
def Obligations.RefPulseOutsideLocked : Prop :=
  (∀ (s : State) (tick : Nat), s.tb.good < 256 → s.tb.ref = .absent ∨ s.tb.ref = .regain →
    (s.tb.lastPulse = none →
      exec (.refPulse tick) s = .next { s with tb := { s.tb with lastPulse := some tick, good := 0 } }) ∧
    (∀ last : Nat, s.tb.lastPulse = some last →
      let held := if s.tb.ref = .absent then nominalHeld s.tb.rate96 else s.tb.held
      ((((tick : Int) - last) * 256 - held).natAbs ≤ held / 1000 →
        exec (.refPulse tick) s = .next { s with
            tb := { s.tb with
                lastPulse := some tick, good := s.tb.good + 1,
                goodSum := s.tb.goodSum + ((tick : Int) - last).toNat } }) ∧
      (held / 1000 < (((tick : Int) - last) * 256 - held).natAbs →
        exec (.refPulse tick) s = .next { s with tb := { s.tb with lastPulse := some tick, good := 0, goodSum := 0 } }))) ∧
  (∀ (s : State) (tick : Nat), s.tb.ref = .holdover →
    exec (.refPulse tick) s =
      .next { s with tb := { s.tb with ref := .regain, lastPulse := some tick, good := 0, goodSum := 0 } })

/-- REF_PULSE in REF_LOCKED is accepted once inside the window of E and ignored otherwise. In REF_LOCKED with no
refinement block complete, a pulse outside the acceptance window (E minus half to E plus half the held period)
is a stray and changes nothing, and so is one that lies no later than the end of a window whose pulse has
already been accepted. Any other pulse inside the window is accepted, and the window's end is kept: the missing
count returns to 0, the last pulse time is its arrival, E becomes that arrival plus the held period; an early
pulse places the next frame at its own arrival, a late one (E already reached) begins no frame. The refinement
block takes the interval when it is in band, restarts with the pulse when it is not. Both ends of a window count
(the model's choice, log entry 13). That an early pulse sets the boundary to its own arrival also where a
boundary is still placed is the model's choice (log entry 19). Times are in the model's units (log entry 6). -/
def Obligations.RefPulseInLocked : Prop :=
  ∀ (s : State) (tick : Nat), s.tb.ref = .locked → s.tb.refineCount < 256 →
    ((512 * tick + s.tb.held < 2 * s.tb.expected ∨ 2 * s.tb.expected + s.tb.held < 512 * tick) →
      exec (.refPulse tick) s = .next s) ∧
    (∀ e : Nat, s.tb.acceptedEnd = some e → 512 * tick ≤ e → exec (.refPulse tick) s = .next s) ∧
    (2 * s.tb.expected ≤ 512 * tick + s.tb.held → 512 * tick ≤ 2 * s.tb.expected + s.tb.held →
      (∀ e : Nat, s.tb.acceptedEnd = some e → e < 512 * tick) →
      ∃ t : State, exec (.refPulse tick) s = .next t ∧ t = { s with tb := t.tb } ∧ t.tb.ref = .locked ∧
        t.tb.missing = 0 ∧ t.tb.lastPulse = some tick ∧ t.tb.expected = 256 * tick + s.tb.held ∧ t.tb.reached = false ∧
        t.tb.acceptedEnd = some (2 * s.tb.expected + s.tb.held) ∧
        t.tb.boundary = (if s.tb.reached then s.tb.boundary else some (256 * tick)) ∧
        t.tb.held = s.tb.held ∧ t.tb.hfc = s.tb.hfc ∧ t.tb.phase = s.tb.phase ∧ t.tb.slice = s.tb.slice ∧
        t.tb.lost = s.tb.lost ∧ t.tb.refineFrom = some tick ∧
        (s.tb.refineFrom = none → t.tb.refineCount = 0 ∧ t.tb.refineSum = 0) ∧
        (∀ last : Nat, s.tb.refineFrom = some last →
          (((((tick : Int) - last) * 256 - s.tb.held).natAbs ≤ s.tb.held / 1000 →
            t.tb.refineCount = s.tb.refineCount + 1 ∧
              t.tb.refineSum = s.tb.refineSum + ((tick : Int) - last).toNat) ∧
          (s.tb.held / 1000 < (((tick : Int) - last) * 256 - s.tb.held).natAbs →
            t.tb.refineCount = 0 ∧ t.tb.refineSum = 0))))

/-- EXPECTED_INSTANT_REACHED and ACCEPTANCE_WINDOW_CLOSE time the flywheel. In REF_LOCKED with no refinement block
complete and no boundary outstanding: reaching E with no pulse accepted places the next frame at E. Once that
frame has begun, the close of the window with no pulse accepted adds one to the missing count, empties the
refinement block and moves E on by the held period; the fourth missing pulse instead enters REF_HOLDOVER: the
reference-lost flag is set, the missing count is 0, the last pulse time none, the held period kept, and the next
boundary is the whole ticks of E plus the held period, with the rest as the running remainder (the model's
choice, log entry 25). Times are in the model's units (log entry 6). That E keeps its last value outside
REF_LOCKED is the model's choice (log entry 36). -/
def Obligations.ExpectedInstantAndWindowClose : Prop :=
  ∀ s : State, s.tb.ref = .locked → s.tb.refineCount < 256 → s.tb.boundary = none →
    (s.tb.reached = false →
      exec .expectedInstantReached s =
        .next { s with tb := { s.tb with boundary := some s.tb.expected, reached := true } }) ∧
    (s.tb.reached = true → s.tb.missing < 3 →
      exec .acceptanceWindowClose s =
        .next { s with
            tb := { s.tb with
                missing := s.tb.missing + 1, refineCount := 0, refineSum := 0, refineFrom := none,
                expected := s.tb.expected + s.tb.held, reached := false } }) ∧
    (s.tb.reached = true → s.tb.missing = 3 →
      exec .acceptanceWindowClose s =
        .next { s with
            tb := { s.tb with
                ref := .holdover, lost := true, missing := 0, lastPulse := none, refineCount := 0, refineSum := 0,
                refineFrom := none, reached := false, boundary := some ((s.tb.expected + s.tb.held) / 256 * 256),
                remainder := (s.tb.expected + s.tb.held) % 256 } })

/-- PULSES_LOST clears the good count, GOOD_COUNT_COMPLETE locks, REFINEMENT_BLOCK_COMPLETE updates the held period.
With a last pulse time and the good count not complete, PULSES_LOST returns the good count and good sum to 0 and
the last pulse time to none; in REF_ABSENT the state stays, in REF_REGAIN the monitor returns to REF_HOLDOVER
and sets the reference-lost flag. With no last pulse time nothing changes. Frame timing is not affected. With
256 good intervals in REF_ABSENT or REF_REGAIN, the monitor enters REF_LOCKED: the held period is the good sum,
E the completing pulse plus it, missing count 0, refinement block empty with that pulse as its first, good count
and sum 0. The boundary placed by the oscillator stands exactly when it lies earlier than half the new held
period before E. With 256 intervals in the refinement block in REF_LOCKED, the held period becomes their sum and
the block starts again; E stands (the model's choice, log entry 24). Times are in the model's units (log entry
6). -/
def Obligations.GoodCountEnds : Prop :=
  (∀ s : State, s.tb.good < 256 →
    (∀ last : Nat, s.tb.lastPulse = some last → s.tb.ref = .absent →
      exec .pulsesLost s = .next { s with tb := { s.tb with good := 0, goodSum := 0, lastPulse := none } }) ∧
    (∀ last : Nat, s.tb.lastPulse = some last → s.tb.ref = .regain →
      exec .pulsesLost s =
        .next { s with
            tb := { s.tb with good := 0, goodSum := 0, lastPulse := none, ref := .holdover, lost := true } }) ∧
    (s.tb.lastPulse = none → s.tb.ref = .absent ∨ s.tb.ref = .regain → exec .pulsesLost s = .next s)) ∧
  (∀ s : State,
    (∀ v : Nat, s.tb.ref = .absent ∨ s.tb.ref = .regain → s.tb.good = 256 → s.tb.lastPulse = some v →
      exec .goodCountComplete s =
        .next { s with
            tb := { s.tb with
                ref := .locked, held := s.tb.goodSum, expected := 256 * v + s.tb.goodSum, reached := false,
                acceptedEnd := none, missing := 0, good := 0, goodSum := 0, refineCount := 0, refineSum := 0, refineFrom := some v,
                boundary := s.tb.boundary.filter fun b => decide (2 * b + s.tb.goodSum < 2 * (256 * v + s.tb.goodSum)) } }) ∧
    (s.tb.ref = .locked → s.tb.refineCount = 256 →
      exec .refinementBlockComplete s =
        .next { s with tb := { s.tb with held := s.tb.refineSum, refineCount := 0, refineSum := 0 } }))

/-- SLICE_BOUNDARY raises the slice index and rolls the records, powers and coefficients. In the house frame at
slice phase 0, SLICE_BOUNDARY raises the slice index by one, copies the ten WEIGHTING entries into the
coefficients in use, makes every channel's building record its latest one, with MS_ch = floor(acc / N_slice) and
the slice just ended as the slice it covers, and starts a new building record at zero. Each present programme
pushes the sum of weight × MS_ch over its members onto its history, of at most four; an absent one keeps its
state. Lines, sources, converters, tables and the delay store are unchanged. That the slice index is raised here
and the slice phase moves in HOUSE_FRAME is the model's split of R3 (DEDUCED, log entry 16). -/
def Obligations.SliceBoundaryWork : Prop :=
  ∀ s : State, s.frame.boundaryDue = true →
    ∃ t : State, exec .sliceBoundary s = .next t ∧
      t.tb = { s.tb with slice := s.tb.slice + 1#32 } ∧ t.frame.boundaryDue = false ∧ t.weights = s.tables.weighting ∧
      (∀ c : ChannelId, t.meas[c] = { s.meas[c] with
          building := { acc := 0, peak := 0, fsCount := 0, outClips := 0 },
          latest := { acc := s.meas[c].building.acc, peak := s.meas[c].building.peak,
                      fsCount := s.meas[c].building.fsCount, outClips := s.meas[c].building.outClips,
                      ms := s.meas[c].building.acc / sliceLength s.tb.rate96, covers := some s.tb.slice } }) ∧
      (∀ (p : ProgId) (r : ProgRecord), s.record p = some r →
        t.loud[p].history = (((r.members.map fun m =>
          m.weight * (s.meas[m.channel].building.acc / sliceLength s.tb.rate96)).sum) :: s.loud[p].history).take 4) ∧
      (∀ p : ProgId, s.record p = none → t.loud[p] = s.loud[p] ∧ t.gain[p] = s.gain[p]) ∧
      t.lines = s.lines ∧ t.sources = s.sources ∧ t.cv = s.cv ∧ t.rx = s.rx ∧ t.tables = s.tables ∧ t.store = s.store

/-- The boundary's decision forms G_new from the controlling level and puts it into the gain schedule queue. At
SLICE_BOUNDARY a present programme's controlling level is that of its latest window with the offset when the
window is gated in (SHORT), that of floor(S / C) with the offset when C is at least 1 (INTEGRATED), and none in
every other case and in OFF. With no level the decision is NO_LEVEL and the queue stands. Otherwise G_new =
clamp(round((T − L) × k / 8)) is recorded and compared with the tail's target, or G_tgt with an empty queue:
below the deadband nothing is queued; else an entry is appended, or replaces the tail of a queue of four, with
the due instant HFC plus lookahead, or the tail's when that lies more frames ahead. The lookahead is the
smallest D_line_cur among the members with a region and a selected source, 0 without one. G_tgt and G_app stand
in every case. -/
def Obligations.DecisionAtABoundary : Prop :=
  ∀ (s : State) (p : ProgId) (r : ProgRecord), s.frame.boundaryDue = true → s.record p = some r →
    ∃ t : State, exec .sliceBoundary s = .next t ∧ t.gain[p].tgt = s.gain[p].tgt ∧ t.gain[p].app = s.gain[p].app ∧
      let level : Option Int := match r.mode, t.loud[p].window with
        | .integrated, _ =>
          if t.loud[p].count = 0 then none else some (rawLevel (t.loud[p].sum / t.loud[p].count) + r.offset)
        | .short, some w => if w.gatedIn then some (w.raw + r.offset) else none
        | _, _ => none
      let queue := s.gain[p].queue
      let due := s.tb.hfc + BitVec.ofNat 32 (s.lookahead p)
      (level = none → t.gain[p].decision = .noLevel ∧ t.gain[p].gNew = none ∧ t.gain[p].queue = queue) ∧
      (∀ x : Int, level = some x →
        let g := clampInt (-(r.cutMax : Int)) r.boostMax (roundDiv ((r.target - x) * r.strength) 8)
        let reference := (queue.getLast?.map (·.target)).getD s.gain[p].tgt
        t.gain[p].gNew = some g ∧
        ((g - reference).natAbs < r.deadband → t.gain[p].decision = .withinDeadband ∧ t.gain[p].queue = queue) ∧
        (r.deadband ≤ (g - reference).natAbs →
          (queue = [] → t.gain[p].decision = .appended ∧ t.gain[p].queue = [{ due := due, target := g }]) ∧
          (∀ tail : GainEntry, queue.getLast? = some tail →
            let entry : GainEntry :=
              { due := if (due - s.tb.hfc).toNat < (tail.due - s.tb.hfc).toNat then tail.due else due, target := g }
            (queue.length < 4 → t.gain[p].decision = .appended ∧ t.gain[p].queue = queue ++ [entry]) ∧
            (queue.length = 4 → t.gain[p].decision = .coalesced ∧ t.gain[p].queue = queue.dropLast ++ [entry])))) ∧
      (let counts (c : ChannelId) : Prop := s.regionOf c ≠ none ∧ s.selectedOf c ≠ none
       (∀ m ∈ r.members, counts m.channel → s.lookahead p ≤ s.lines[m.channel].cur) ∧
       ((∃ m ∈ r.members, counts m.channel) →
        ∃ m ∈ r.members, counts m.channel ∧ s.lookahead p = s.lines[m.channel].cur) ∧
       ((∀ m ∈ r.members, ¬ counts m.channel) → s.lookahead p = 0))

/-- The boundary's window is gated, and its power admitted to the integrator. At SLICE_BOUNDARY a present programme
pushes its power onto its history. With fewer than four powers it has no window and the integrator stands. With
four, the window's power W is floor(their sum / 4); it is gated in when its level is at or above the absolute
gate. It is admitted when it is gated in and either C is 0 or its level is at or above L_int less the relative
gate depth, with L_int as it stands before. On admission S goes up by W and C by one; with C at 65,535 S is
halved first and C becomes 32,768. A window that is not admitted leaves S and C, and both marks are kept with
it. -/
def Obligations.WindowAndAdmission : Prop :=
  ∀ (s : State) (p : ProgId) (r : ProgRecord), s.frame.boundaryDue = true → s.record p = some r →
    let l := s.loud[p]
    let power := (r.members.map fun m => m.weight * (s.meas[m.channel].building.acc / sliceLength s.tb.rate96)).sum
    let history := (power :: l.history).take 4
    let w := history.sum / 4
    let level := rawLevel w + r.offset
    let gated := r.absGate ≤ level
    let passes := l.count = 0 ∨ rawLevel (l.sum / l.count) + r.offset - r.gateDepth ≤ level
    let window (gatedIn admitted : Bool) : Window :=
      { power := w, raw := rawLevel w, gatedIn := gatedIn, admitted := admitted }
    ∃ t : State, exec .sliceBoundary s = .next t ∧
      (history.length < 4 → t.loud[p] = { l with history := history, window := none }) ∧
      (history.length = 4 →
        (gated → passes → l.count < 65535 →
          t.loud[p] = { history := history, window := some (window true true), sum := l.sum + w, count := l.count + 1 }) ∧
        (gated → passes → l.count = 65535 →
          t.loud[p] = { history := history, window := some (window true true), sum := l.sum / 2 + w, count := 32768 }) ∧
        (gated → ¬ passes → t.loud[p] = { l with history := history, window := some (window true false) }) ∧
        (¬ gated → t.loud[p] = { l with history := history, window := some (window false false) }))

/-- LINE_TRANSITION, ACTIVITY_TIMEOUT and ALIGNMENT_WORD_FOUND move a receiver. A transition moves a SILENT receiver
to HUNTING with candidate count 0. 1,024 ticks without one move a HUNTING or FRAMED receiver to SILENT; from
FRAMED its converter enters DARK with its loss ramp started, or stands when it is DARK already; on the
management link a message in progress is discarded and counted as a link loss, and in every other case the port
stands. In HUNTING with no candidate, the alignment word found at any bit position that the search looks at
makes that position the candidate frame start. With a candidate the receiver looks one frame length, 439 bits,
later and nowhere else: the word there raises the count, the third in a row enters FRAMED at that position with
bad run 0 and a hold copy of 16 zeros; a word missing there drops the candidate, and the search resumes at the
bit after the candidate's first word. The error counts keep their values. The candidate count and the bad run
that stand in SILENT are the model's choice (log entry 26), and how bit positions are counted too (log entry
18). So are the activity watch (log entry 6), what the assembler holds in IDLE (log entry 34), and what a
converter keeps in DARK of a splice or a measurement that it discards (log entry 35). -/
def Obligations.ReceiverSearchSteps : Prop :=
  ∀ (s : State) (l : LinkId),
    (s.rx[l].state = .silent →
      exec (.lineTransition l) s = .next (s.setRx l { s.rx[l] with state := .hunting, candidates := 0, lookAt := 0, watch := 0 })) ∧
    (s.rx[l].state = .hunting →
      exec (.activityTimeout l) s = .next (s.setRx l { s.rx[l] with state := .silent, watch := 1024 })) ∧
    (s.rx[l].state = .framed →
      ∃ t : State, exec (.activityTimeout l) s = .next t ∧ t.rx[l] = { s.rx[l] with state := .silent, watch := 1024 } ∧
        t.cv[l] = (if s.cv[l].state = .dark then s.cv[l] else { s.cv[l] with
            state := .dark, rampStart := s.cv[l].last, rampCount := 0, filter := none, leaveDue := false,
            jumpDue := false }) ∧
        (l ≠ s.port.mlk → t.port = s.port) ∧ (s.port.assembler.collecting = false → t.port = s.port) ∧
        (l = s.port.mlk → s.port.assembler.collecting = true → s.port.assembler.quiet < 64 →
          t.port = { s.port with
              assembler := idleAssembler,
              errors := { s.port.errors with linkLoss := min 65535 (s.port.errors.linkLoss + 1) } }) ∧
        (∀ k : LinkId, k ≠ l → t.rx[k] = s.rx[k] ∧ t.cv[k] = s.cv[k]) ∧
        t = { s with rx := t.rx, cv := t.cv, port := t.port }) ∧
    (∀ look : WordLook, s.rx[l].state = .hunting → s.rx[l].candidates = 0 →
      (look.found = true → s.rx[l].lookAt ≤ look.pos →
        exec (.alignmentWordFound l look) s =
          .next (s.setRx l { s.rx[l] with
              candidates := 1, first := look.pos, lookAt := look.pos + 439, watch := 0 })) ∧
      (look.found = false ∨ look.pos < s.rx[l].lookAt → exec (.alignmentWordFound l look) s = .next s)) ∧
    (∀ look : WordLook, s.rx[l].state = .hunting → s.rx[l].candidates = 1 ∨ s.rx[l].candidates = 2 →
      (look.pos ≠ s.rx[l].lookAt → exec (.alignmentWordFound l look) s = .next s) ∧
      (look.pos = s.rx[l].lookAt → look.found = true → s.rx[l].candidates = 1 →
        exec (.alignmentWordFound l look) s =
          .next (s.setRx l { s.rx[l] with candidates := 2, lookAt := s.rx[l].lookAt + 439, watch := 0 })) ∧
      (look.pos = s.rx[l].lookAt → look.found = true → s.rx[l].candidates = 2 →
        exec (.alignmentWordFound l look) s =
          .next (s.setRx l { s.rx[l] with
              state := .framed, candidates := 3, badRun := 0, hold := zeroSamples, watch := 0 })) ∧
      (look.pos = s.rx[l].lookAt → look.found = false →
        exec (.alignmentWordFound l look) s =
          .next (s.setRx l { s.rx[l] with candidates := 0, lookAt := s.rx[l].first + 16, watch := 0 })))

/-- A good LINK_FRAME delivers its 16 samples as one frame arrival. In FRAMED a well-formed frame with the right
alignment word and even parity over its 439 cells sets the bad run to 0 and the hold copy to the delivered
samples: the sample of a slot with its valid mark set, zero otherwise. They are written into ring entry W modulo
64 and W goes up by one; a measurement in ACQUIRING or UNSUPPORTED that is not at its end, or in DIRECT mode,
counts the arrival, and in any other state n stands (a count past 65,535 is a free value, log entry 9). On the
management link the bytes present go to the assembler, byte 0 first and with its start mark, and a frame with no
byte adds one to the quiet frame count of a message in progress. Other links, lines, tables and all audio state
are unchanged, and on a link other than the management link so is the management port. The search position that
moves on by one frame and the activity watch are the model's (log entries 18 and 6). -/
def Obligations.GoodLinkFrame : Prop :=
  ∀ (s : State) (l : LinkId) (f : LinkFrame), s.rx[l].state = .framed → f.wellFormed = true → f.align = alignmentWord →
    evenParity f = true →
    ∃ t : State, exec (.linkFrame l f) s = .next t ∧
      t.rx[l].badRun = 0 ∧ t.rx[l].state = .framed ∧ t.rx[l].parityErrors = s.rx[l].parityErrors ∧
      t.rx[l].alignErrors = s.rx[l].alignErrors ∧
      (∀ (i : SlotId) (c : SlotCell), f.slots[i.val]? = some c →
        t.rx[l].hold[i] = if c.valid then c.sample else 0#24) ∧
      t.cv[l].w = s.cv[l].w + 1#32 ∧ t.cv[l].state = s.cv[l].state ∧
      (∀ e : Fin 64, t.cv[l].ring[e] = if e.val = s.cv[l].w.toNat % 64 then t.rx[l].hold else s.cv[l].ring[e]) ∧
      t.rx[l] = { s.rx[l] with
        badRun := 0, hold := t.rx[l].hold, lookAt := s.rx[l].lookAt + 439, watch := 0 } ∧
      t.cv[l] = { s.cv[l] with ring := t.cv[l].ring, w := s.cv[l].w + 1#32, n := t.cv[l].n } ∧
      (let counts := (s.cv[l].state = .acquiring ∨ s.cv[l].state = .unsupported) ∧ (s.modeOf l = .direct ∨ s.cv[l].m < 1024)
       (counts → s.cv[l].n < 65535 → t.cv[l].n = s.cv[l].n + 1) ∧ (¬ counts → t.cv[l].n = s.cv[l].n)) ∧
      (∀ k : LinkId, k ≠ l → t.rx[k] = s.rx[k] ∧ t.cv[k] = s.cv[k]) ∧
      (l ≠ s.port.mlk → t.port = s.port) ∧
      (l = s.port.mlk → s.port.assembler.quiet < 64 →
        (f.present0 = true → f.present1 = false → t.port = s.port.takeByte f.byte0 f.start) ∧
        (f.present0 = true → f.present1 = true → t.port = (s.port.takeByte f.byte0 f.start).takeByte f.byte1 false) ∧
        (f.present0 = false → f.present1 = true → t.port = s.port.takeByte f.byte1 false) ∧
        (f.present0 = false → f.present1 = false →
          t.port = if s.port.assembler.collecting then
              { s.port with assembler := { s.port.assembler with quiet := s.port.assembler.quiet + 1 } } else s.port)) ∧
      t = { s with rx := t.rx, cv := t.cv, port := t.port, free := t.free }

/-- A LINK_FRAME with a bad alignment word or odd parity repeats the hold copy. In FRAMED, a frame with a wrong
alignment word adds one to the alignment error count; the first three in a row stay FRAMED with the bad run up
by one and deliver the hold copy as the arrival; the fourth goes to HUNTING with counts 0 and no arrival, with
the search to begin at the bit after its alignment word (16 bits on, DEDUCED, log entry 18), and the converter
enters DARK with its loss ramp started, or stands when it is DARK already. A frame with the right word and odd
parity adds one to the parity error count, sets the bad run to 0 and delivers the hold copy. The counts saturate
at 65,535. The hold copy is unchanged. An arrival is written into ring entry W modulo 64 alone and counted as in
a good frame. On the management link a frame that stays in FRAMED discards a message in progress and counts it
as a frame fault, and one that leaves FRAMED counts it as a link loss; with no message in progress the port
stands. Nothing else changes. The search position, which moves on by one frame otherwise, and the activity watch
are the model's (log entries 18 and 6); so are the quiet frame count 0 and the running CRC 0 of the assembler in
IDLE (log entry 34), a count past 65,535 (a free value, log entry 9), and what a converter keeps in DARK of a
splice or a measurement that it discards (log entry 35). -/
def Obligations.FaultedLinkFrame : Prop :=
  ∀ (s : State) (l : LinkId) (f : LinkFrame), s.rx[l].state = .framed →
    (f.align ≠ alignmentWord → s.rx[l].badRun < 3 →
      ∃ t : State, exec (.linkFrame l f) s = .next t ∧
        t.rx[l] = { s.rx[l] with
            badRun := s.rx[l].badRun + 1, alignErrors := min 65535 (s.rx[l].alignErrors + 1),
            lookAt := s.rx[l].lookAt + 439, watch := 0 } ∧
        t.cv[l] = { s.cv[l] with ring := t.cv[l].ring, w := s.cv[l].w + 1#32, n := t.cv[l].n } ∧
        (∀ e : Fin 64, t.cv[l].ring[e] = if e.val = s.cv[l].w.toNat % 64 then s.rx[l].hold else s.cv[l].ring[e]) ∧
        (let counts := (s.cv[l].state = .acquiring ∨ s.cv[l].state = .unsupported) ∧
           (s.modeOf l = .direct ∨ s.cv[l].m < 1024)
         (counts → s.cv[l].n < 65535 → t.cv[l].n = s.cv[l].n + 1) ∧ (¬ counts → t.cv[l].n = s.cv[l].n)) ∧
        (∀ k : LinkId, k ≠ l → t.rx[k] = s.rx[k] ∧ t.cv[k] = s.cv[k]) ∧ (l ≠ s.port.mlk → t.port = s.port) ∧
        (s.port.assembler.collecting = false → t.port = s.port) ∧
        (l = s.port.mlk → s.port.assembler.collecting = true → s.port.assembler.quiet < 64 →
          t.port = { s.port with
              assembler := idleAssembler,
              errors := { s.port.errors with frameFault := min 65535 (s.port.errors.frameFault + 1) } }) ∧
        t = { s with rx := t.rx, cv := t.cv, port := t.port, free := t.free }) ∧
    (f.align ≠ alignmentWord → s.rx[l].badRun = 3 →
      ∃ t : State, exec (.linkFrame l f) s = .next t ∧
        t.rx[l] = { s.rx[l] with
            state := .hunting, candidates := 0, badRun := 0, alignErrors := min 65535 (s.rx[l].alignErrors + 1),
            lookAt := s.rx[l].lookAt + 16, watch := 0 } ∧
        t.cv[l] = (if s.cv[l].state = .dark then s.cv[l] else { s.cv[l] with
            state := .dark, rampStart := s.cv[l].last, rampCount := 0, filter := none, leaveDue := false,
            jumpDue := false }) ∧
        (s.port.assembler.collecting = false → t.port = s.port) ∧
        (l = s.port.mlk → s.port.assembler.collecting = true → s.port.assembler.quiet < 64 →
          t.port = { s.port with
              assembler := idleAssembler,
              errors := { s.port.errors with linkLoss := min 65535 (s.port.errors.linkLoss + 1) } }) ∧
        (∀ k : LinkId, k ≠ l → t.rx[k] = s.rx[k] ∧ t.cv[k] = s.cv[k]) ∧ (l ≠ s.port.mlk → t.port = s.port) ∧
        t = { s with rx := t.rx, cv := t.cv, port := t.port }) ∧
    (f.align = alignmentWord → evenParity f = false →
      ∃ t : State, exec (.linkFrame l f) s = .next t ∧
        t.rx[l] = { s.rx[l] with
            badRun := 0, parityErrors := min 65535 (s.rx[l].parityErrors + 1), lookAt := s.rx[l].lookAt + 439, watch := 0 } ∧
        t.cv[l] = { s.cv[l] with ring := t.cv[l].ring, w := s.cv[l].w + 1#32, n := t.cv[l].n } ∧
        (∀ e : Fin 64, t.cv[l].ring[e] = if e.val = s.cv[l].w.toNat % 64 then s.rx[l].hold else s.cv[l].ring[e]) ∧
        (let counts := (s.cv[l].state = .acquiring ∨ s.cv[l].state = .unsupported) ∧
           (s.modeOf l = .direct ∨ s.cv[l].m < 1024)
         (counts → s.cv[l].n < 65535 → t.cv[l].n = s.cv[l].n + 1) ∧ (¬ counts → t.cv[l].n = s.cv[l].n)) ∧
        (∀ k : LinkId, k ≠ l → t.rx[k] = s.rx[k] ∧ t.cv[k] = s.cv[k]) ∧ (l ≠ s.port.mlk → t.port = s.port) ∧
        (s.port.assembler.collecting = false → t.port = s.port) ∧
        (l = s.port.mlk → s.port.assembler.collecting = true → s.port.assembler.quiet < 64 →
          t.port = { s.port with
              assembler := idleAssembler,
              errors := { s.port.errors with frameFault := min 65535 (s.port.errors.frameFault + 1) } }) ∧
        t = { s with rx := t.rx, cv := t.cv, port := t.port, free := t.free })

/-- A whole good message joins the command queue; ASSEMBLER_TIMEOUT discards one in progress. When the assembler is
IDLE, the bytes of a message of kind COMMAND for this unit, its check byte included, taken one by one with the
start mark on the first, leave the assembler IDLE and put the message at the tail of the command queue when that
holds fewer than 4. No error count moves, and nothing else of the port changes. In COLLECTING with the quiet
frame count at 64, the message is discarded, the assembler returns to IDLE with nothing held, and the timeout
count goes up by one, saturating at 65,535. With a lower count, or in IDLE, nothing changes. The quiet frame
count 0 and the running CRC 0 in IDLE after a timeout or a completion are the model's choice (log entry 34):
R153 and R154 name only the return to IDLE. -/
def Obligations.AssemblerMessages : Prop :=
  (∀ (p : Port) (m : Message) (b : Byte) (bs : List Byte), messageBytes m = b :: bs → m.payload.length ≤ 248 →
    m.kind = .command → m.addr = p.addr → m.addr ≠ 63#6 → p.assembler = idleAssembler → p.commands.length < 4 →
    bs.foldl (fun (q : Port) x => q.takeByte x false) (p.takeByte b true) = { p with commands := p.commands ++ [m] }) ∧
  (∀ s : State,
    (s.port.assembler.collecting = true → s.port.assembler.quiet = 64 →
      exec .assemblerTimeout s =
        .next { s with
            port := { s.port with
                assembler := { collecting := false, buffer := [], expected := none, crc := 0#8, quiet := 0 },
                errors := { s.port.errors with timeout := min 65535 (s.port.errors.timeout + 1) } } }) ∧
    (s.port.assembler.collecting = false ∨ s.port.assembler.quiet < 64 → exec .assemblerTimeout s = .next s))

/-- Messages are routed by address and kind, full queues refuse, and a broken message is discarded and counted. A
complete message for address 63 of kind COMMAND joins the command queue and the relay queue; a COMMAND for this
unit joins the command queue alone; any other message joins the relay queue alone. A relay queue of 8 refuses
and counts a relay overflow. A command queue of 4 refuses and counts a command overflow: a unicast command is
answered QUEUE_FULL when fewer than 8 replies wait, a broadcast is not answered, and with 8 replies nobody is.
In the assembler: a byte with the start mark while COLLECTING counts an interrupted message and begins a new
one; the fourth kind value in byte 0, and a length byte above 248, discard the message and count a header error;
the byte that completes the expected length hands a message whose check register is 0 to routing, and any other
is discarded and counted as a CRC error; a byte without a start mark in IDLE is ignored. Counts saturate at
65,535. The quiet frame count 0 and the running CRC 0 in IDLE after a header error, a CRC error or a completion
are the model's choice (log entry 34): R152 to R154 name only the return to IDLE. -/
def Obligations.MessageRouting : Prop :=
  (∀ (p : Port) (m : Message), m.payload.length ≤ 248 → p.relay.length ≤ 8 → p.commands.length ≤ 4 →
    let bs := messageBytes m
    let relayed (q : Port) : Port := if p.relay.length < 8 then { q with relay := p.relay ++ [bs] } else
      { q with errors := { q.errors with relayOverflow := min 65535 (q.errors.relayOverflow + 1) } }
    let full : Port :=
      { p with errors := { p.errors with commandOverflow := min 65535 (p.errors.commandOverflow + 1) } }
    (m.kind = .command → m.addr = 63#6 →
      p.route bs = relayed (if p.commands.length < 4 then { p with commands := p.commands ++ [m] } else full)) ∧
    (m.kind = .command → m.addr = p.addr → m.addr ≠ 63#6 →
      (p.commands.length < 4 → p.route bs = { p with commands := p.commands ++ [m] }) ∧
      (p.commands.length = 4 → p.replies.length < 8 →
        p.route bs = { full with
            replies := p.replies ++
              [{ addr := p.addr, kind := .reply, tag := m.tag, code := m.code, payload := [8#8] }] }) ∧
      (p.commands.length = 4 → 8 ≤ p.replies.length → p.route bs = full)) ∧
    (m.kind ≠ .command ∨ (m.addr ≠ 63#6 ∧ m.addr ≠ p.addr) → p.route bs = relayed p)) ∧
  (∀ (p : Port) (b : Byte),
    let idle : Assembler := { collecting := false, buffer := [], expected := none, crc := 0#8, quiet := 0 }
    let begun : Assembler := { collecting := true, buffer := [b], expected := none, crc := crc [b], quiet := 0 }
    let headerError : Port :=
      { p with assembler := idle, errors := { p.errors with header := min 65535 (p.errors.header + 1) } }
    (p.assembler.collecting = false → p.takeByte b false = p ∧
      p.takeByte b true = if b.toNat % 4 = 3 then headerError else { p with assembler := begun }) ∧
    (p.assembler.collecting = true →
      (b.toNat % 4 ≠ 3 → p.takeByte b true = { p with
          assembler := begun, errors := { p.errors with interrupted := min 65535 (p.errors.interrupted + 1) } }) ∧
      (b.toNat % 4 = 3 → p.takeByte b true = { p with
          assembler := idle,
          errors := { p.errors with
              interrupted := min 65535 (p.errors.interrupted + 1), header := min 65535 (p.errors.header + 1) } }) ∧
      (p.assembler.buffer.length = 3 → 248 < b.toNat → p.takeByte b false = headerError) ∧
      (p.assembler.buffer.length ≠ 3 → p.assembler.expected = some (p.assembler.buffer.length + 1) →
        (crcByte p.assembler.crc b = 0#8 →
          p.takeByte b false = ({ p with assembler := idle } : Port).route (p.assembler.buffer ++ [b])) ∧
        (crcByte p.assembler.crc b ≠ 0#8 →
          p.takeByte b false =
            { p with assembler := idle, errors := { p.errors with crc := min 65535 (p.errors.crc + 1) } }))))

/-- LEAVE_DARK moves a converter from DARK to ACQUIRING. In a house frame that began with the converter DARK, its
loss ramp complete, its receiver FRAMED and its mode CONVERT or DIRECT (the model's mark leaveDue, log entry
14), and with all of that still so, LEAVE_DARK moves the converter to ACQUIRING with m and n at 0. In a frame
that did not begin so, nothing changes. -/
def Obligations.LeaveDarkStartsAcquiring : Prop :=
  ∀ (s : State) (l : LinkId), s.cv[l].state = .dark →
    (s.cv[l].leaveDue = true → s.rx[l].state = .framed → s.modeOf l ≠ .off →
      exec (.leaveDark l) s =
        .next (s.setCv l { s.cv[l] with state := .acquiring, m := 0, n := 0, leaveDue := false })) ∧
    (s.cv[l].leaveDue = false → exec (.leaveDark l) s = .next s)

/-- A measurement that ends locks a ratio in the supported range and leads to UNSUPPORTED outside it. When m has
reached 1,024 and Q0 = n × 16,384 lies in 8,388,608 to 37,748,735, ACQUISITION_END (in ACQUIRING, CONVERT mode)
and UNSUPPORTED_BLOCK_END (in UNSUPPORTED) enter LOCKED: Q_int and Q_applied are Q0, the filter set is the one
R52 chooses, R is W − 32 with fraction 0, the tracking count is 0, the fader 64, and L_c is ceiling(32 × 2^24 /
Q_int) + 2. Channels that waited for their primary on the link return to PRIMARY, each with a CUT of its line; a
changed L_c recomputes with class CUT the lines of the other channels whose selected source lies on the link.
Nothing else changes. When m has reached 1,024 and Q0 = n × 16,384 lies outside 8,388,608 to 37,748,735,
ACQUISITION_END moves the converter to UNSUPPORTED and UNSUPPORTED_BLOCK_END keeps it there: the new Q0 is
recorded and a new block starts with m and n at 0. Q_int, Q_applied, L_c and everything else keep their values.
The set that R52 chooses is that of the enabled SET_SELECT entry with the largest bound not above Q0, and set 0
when there is none. -/
def Obligations.MeasurementEnds : Prop :=
  (∀ (s : State) (l : LinkId), s.modeOf l = .convert → s.cv[l].m = 1024 → 8388608 ≤ s.cv[l].n * 16384 →
    s.cv[l].n * 16384 ≤ 37748735 →
    let q := s.cv[l].n * 16384
    let v : Conv := { s.cv[l] with
        state := .locked, q0 := q, qInt := q, qApplied := q, filter := some (chooseSet s.tables.setSelect q),
        rInt := s.cv[l].w - 32#32, rFrac := 0#24, track := 0, g := 64, lc := (32 * 16777216 + (q - 1)) / q + 2 }
    (s.cv[l].state = .acquiring → ∃ t : State, exec (.acquisitionEnd l) s = .next t ∧ Safety.LockEntry s t l v) ∧
    (s.cv[l].state = .unsupported → ∃ t : State, exec (.unsupportedBlockEnd l) s = .next t ∧ Safety.LockEntry s t l v)) ∧
  (∀ (s : State) (l : LinkId), s.modeOf l = .convert → s.cv[l].m = 1024 →
    (s.cv[l].n * 16384 < 8388608 ∨ 37748735 < s.cv[l].n * 16384) →
    (s.cv[l].state = .acquiring →
      exec (.acquisitionEnd l) s =
        .next (s.setCv l { s.cv[l] with state := .unsupported, q0 := s.cv[l].n * 16384, m := 0, n := 0 })) ∧
    (s.cv[l].state = .unsupported →
      exec (.unsupportedBlockEnd l) s =
        .next (s.setCv l { s.cv[l] with q0 := s.cv[l].n * 16384, m := 0, n := 0 }))) ∧
  (∀ (sel : Vector (Option SelectEntry) 4) (q : Nat),
    ((∀ (i : Fin 4) (x : SelectEntry), sel[i] = some x → q < x.bound) → chooseSet sel q = 0) ∧
    (∀ (i : Fin 4) (x : SelectEntry), sel[i] = some x → x.bound ≤ q →
      (∀ (j : Fin 4) (y : SelectEntry), j ≠ i → sel[j] = some y → y.bound ≤ q → y.bound < x.bound) →
      chooseSet sel q = x.set))

/-- DIRECT_ACQUISITION_END locks at exactly 1.0 with latency 6. In DIRECT mode, ACQUIRING with n at 8 or more:
DIRECT_ACQUISITION_END enters LOCKED with Q0, Q_int and Q_applied 16,777,216, R at W − 4 with fraction 0, no
filter set in use, tracking count 0, fader 64 and L_c 6. Channels that waited for their primary on the link
return to PRIMARY, each with a CUT of its line; a changed L_c recomputes with class CUT the lines of the other
channels whose selected source lies on the link. With n below 8 nothing changes. -/
def Obligations.DirectAcquisitionLocks : Prop :=
  ∀ (s : State) (l : LinkId), s.modeOf l = .direct → s.cv[l].state = .acquiring →
    (8 ≤ s.cv[l].n → ∃ t : State, exec (.directAcquisitionEnd l) s = .next t ∧
      Safety.LockEntry s t l { s.cv[l] with
          state := .locked, q0 := 16777216, qInt := 16777216, qApplied := 16777216, filter := none,
          rInt := s.cv[l].w - 4#32, rFrac := 0#24, track := 0, g := 64, lc := 6 }) ∧
    (s.cv[l].n < 8 → exec (.directAcquisitionEnd l) s = .next s)

/-- SERVO_UPDATE moves Q_applied and Q_int by the fill error within their limits. In LOCKED in CONVERT mode with the
tracking count at 256, SERVO_UPDATE returns the count to 0 and with e = F − 32 sets Q_applied to Q_int + e ×
2^(24−gp) clamped to the supported range and Q_int to Q_int + e × 2^(24−gi) clamped to the band around Q0. Both
results lie in those limits, given Q0 in the supported range, and nothing else changes. -/
def Obligations.ServoUpdateRule : Prop :=
  ∀ (s : State) (l : LinkId) (cfg : LinkConfig), s.cv[l].state = .locked → s.tables.linkConfig[l] = cfg →
    cfg.mode = .convert → s.cv[l].track = 256 → 8388608 ≤ s.cv[l].q0 → s.cv[l].q0 ≤ 37748735 →
    ∃ (qa qi : Nat),
      exec (.servoUpdate l) s = .next (s.setCv l { s.cv[l] with track := 0, qApplied := qa, qInt := qi }) ∧
      (qa : Int) = max 8388608 (min 37748735 (s.cv[l].qInt + (s.cv[l].fill - 32) * 2 ^ (24 - cfg.gp))) ∧
      (qi : Int) = max (max ((s.cv[l].q0 : Int) - 65536) 8388608)
        (min (min (s.cv[l].q0 + 65536) 37748735) (s.cv[l].qInt + (s.cv[l].fill - 32) * 2 ^ (24 - cfg.gi)))

/-- SPLICE_JUMP re-places the read position and sends the frame from there, SPLICE_END returns to LOCKED and counts
the slip. In the frame after FALL frame 64 with no jump made, SPLICE_JUMP sets R to W − 32 in CONVERT and W − 4
in DIRECT with fraction 0, Q_applied to Q_int, and starts RISE at frame 1 with g = 1; the 16 values at the new R
are sent saturated and scaled at g = 1, each one saturated is counted, and the fill recorded is that at the new
R, 32 or 4 (the model's choice, log entry 15; ConverterHouseFrame says the value of a slot, the saturation and
the scale). Nothing else changes. In RISE frame 64, SPLICE_END returns the converter to LOCKED: the slip count
goes up by one up to 65,535, the re-acquire window is 4,096, the last slip slice is the slice index, L_c is
worked out again from Q_int and the tracking count is 0; Q0 and the filter set are kept. Channels that waited
for their primary on the link return to PRIMARY, each with a CUT of its line; a changed L_c recomputes with
class CUT the lines of the other channels whose selected source lies on the link. That this jump leaves the
jump-made mark clear is the model's choice (log entry 38). -/
def Obligations.SpliceJumpAndEnd : Prop :=
  ∀ (s : State) (l : LinkId), s.cv[l].state = .splicing →
    (s.cv[l].jumpDue = true →
      let target := if s.modeOf l = .direct then 4 else 32
      let placed : Conv := { s.cv[l] with
          rInt := s.cv[l].w - BitVec.ofNat 32 target, rFrac := 0#24, qApplied := s.cv[l].qInt, fill := target,
          splice := .rise, spliceCount := 1, g := 1, jumpDue := false }
      let values : Vector Int 16 := Vector.ofFn fun slot => slotValue s.tables.filters (s.modeOf l) placed slot
      exec (.spliceJump l) s =
        .next (s.setCv l { placed with
            last := values.map fun v => fade (saturate24 v) 1,
            saturations := min 65535 (s.cv[l].saturations + (values.toList.filter outside24).length) })) ∧
    (s.cv[l].splice = .rise → s.cv[l].spliceCount = 64 →
      ∃ t : State, exec (.spliceEnd l) s = .next t ∧
        Safety.LockEntry s t l { s.cv[l] with
            state := .locked, track := 0, g := 64, slips := min 65535 (s.cv[l].slips + 1), window := 4096,
            lastSlip := some s.tb.slice,
            lc := if s.modeOf l = .direct then 6 else (32 * 16777216 + (s.cv[l].qInt - 1)) / s.cv[l].qInt + 2 })

/-- A house frame ramps a DARK converter, interpolates a LOCKED one, and starts or runs a slip. When nothing of the
frame in progress is still due, HOUSE_FRAME does a converter's frame. The re-acquire window goes down by one. In
DARK, and in any state with mode OFF, the loss ramp counts up to 64 and each slot is round(v × (64 − count) /
64) of its start value. LEAVE_DARK is due in the frame exactly when it began in DARK with the loss ramp complete
at 64, the receiver FRAMED and the mode CONVERT or DIRECT. ACQUIRING and UNSUPPORTED send zeros and count m in
CONVERT. In LOCKED R advances by Q_applied (by 1.0 in DIRECT) and the fill F is W less its integer part: in the
valid range the 16 values at R are sent saturated, each one saturated is counted, and the tracking count goes up
in CONVERT; outside it a window still above 0 sends the converter to ACQUIRING as a second slip, and otherwise
the splice starts in FALL frame 1 at g = 63, or at g = 0 with R re-placed on an extreme fill. In SPLICING, FALL
frame k has g = 64 − k with the same test until a jump, RISE frame k has g = k, and after FALL frame 64 comes
RISE, or the jump is due. The value of a slot is the interpolation of section 3.4, with the next phase and the
window advanced by one at phase 63. A value is saturated to 24 bits, and scaled at g as round(v × g / 64). The
fill that a frame records and the marks of a due LEAVE_DARK and a due jump are the model's (log entries 14, 15
and 2). That m stands in DIRECT is the model's choice (log entry 37). -/
def Obligations.ConverterHouseFrame : Prop :=
  (∀ (s : State) (b : Nat) (l : LinkId), s.tb.boundary = some b → settleTimebase s.tb = s.tb → s.settleFrame = s →
    Safety.RegionsFit s →
    ∃ t : State, exec .houseFrame s = .next t ∧
      let c := s.cv[l]
      let x := t.cv[l]
      let direct := s.modeOf l = .direct
      let pos := c.rInt.toNat * 16777216 + c.rFrac.toNat + if direct then 16777216 else c.qApplied
      let fill := (c.w - BitVec.ofNat 32 (pos / 16777216)).toInt
      let valid := if direct then 2 ≤ fill ∧ fill ≤ 12 else 14 ≤ fill ∧ fill ≤ 50
      let extreme := if direct then fill < 1 ∨ 64 < fill else fill < 13 ∨ 53 < fill
      let sent (g : Nat) (v : Vector Int 16) : SixteenSamples := v.map fun y => fade (saturate24 y) g
      let counted (v : Vector Int 16) : Nat := min 65535 (c.saturations + (v.toList.filter outside24).length)
      let advanced : Conv :=
        { c with rInt := BitVec.ofNat 32 (pos / 16777216), rFrac := BitVec.ofNat 24 pos, fill := fill,
                 window := c.window - 1, leaveDue := false, jumpDue := false }
      let values (y : Conv) : Vector Int 16 := Vector.ofFn fun slot => slotValue s.tables.filters (s.modeOf l) y slot
      let replaced : Conv :=
        { advanced with rInt := c.w - (if direct then 4#32 else 32#32), rFrac := 0#24, qApplied := c.qInt,
                        jumped := true }
      x.window = (if c.state = .locked ∧ s.modeOf l ≠ .off ∧ ¬ valid ∧ 1 < c.window then 4096 else c.window - 1) ∧
      (x.leaveDue = true ↔ c.state = .dark ∧ c.rampCount = 64 ∧ s.rx[l].state = .framed ∧
        (s.modeOf l = .convert ∨ s.modeOf l = .direct)) ∧
      (x.jumpDue = true ↔ s.modeOf l ≠ .off ∧ c.state = .splicing ∧ c.splice = .fall ∧ 64 ≤ c.spliceCount ∧
        c.jumped = false) ∧
      (c.state = .dark → x.state = .dark ∧ x.rampStart = c.rampStart ∧ x.rampCount = min 64 (c.rampCount + 1) ∧
        x.last = c.rampStart.map fun v => fade v (64 - min 64 (c.rampCount + 1))) ∧
      (c.state ≠ .dark → s.modeOf l = .off → x.state = .dark ∧ x.rampStart = c.last ∧ x.rampCount = 1 ∧
        x.filter = none ∧ x.last = c.last.map fun v => fade v 63) ∧
      (s.modeOf l ≠ .off → c.state = .acquiring ∨ c.state = .unsupported → x.state = c.state ∧ x.last = zeroSamples ∧
        x.n = c.n ∧ x.m = if direct then c.m else min 1024 (c.m + 1)) ∧
      (s.modeOf l ≠ .off → c.state = .locked →
        (valid → x = { advanced with
            last := sent c.g (values advanced), saturations := counted (values advanced),
            track := if direct then c.track else c.track + 1 }) ∧
        (¬ valid → 1 < c.window → x = { advanced with
            state := .acquiring, m := 0, n := 0, last := zeroSamples, filter := none, window := 4096,
            slips := min 65535 (c.slips + 1), lastSlip := some s.tb.slice }) ∧
        (¬ valid → c.window ≤ 1 → ¬ extreme → x = { advanced with
            state := .splicing, splice := .fall, spliceCount := 1, jumped := false, g := 63,
            last := sent 63 (values advanced), saturations := counted (values advanced) }) ∧
        (¬ valid → c.window ≤ 1 → extreme → x = { replaced with
            state := .splicing, splice := .fall, spliceCount := 1, g := 0,
            last := sent 0 (values replaced), saturations := counted (values replaced) })) ∧
      (s.modeOf l ≠ .off → c.state = .splicing →
        (c.splice = .fall → c.spliceCount < 64 → c.jumped = true ∨ ¬ extreme →
          let g := if c.jumped then 0 else 64 - (c.spliceCount + 1)
          x = { advanced with
              spliceCount := c.spliceCount + 1, g := g, last := sent g (values advanced),
              saturations := counted (values advanced) }) ∧
        (c.splice = .fall → c.spliceCount < 64 → c.jumped = false → extreme → x = { replaced with
            spliceCount := c.spliceCount + 1, g := 0, last := sent 0 (values replaced),
            saturations := counted (values replaced) }) ∧
        (c.splice = .fall → c.spliceCount = 64 → c.jumped = true → x = { advanced with
            splice := .rise, spliceCount := 1, g := 1, last := sent 1 (values advanced),
            saturations := counted (values advanced) }) ∧
        (c.splice = .fall → c.spliceCount = 64 → c.jumped = false →
          x = { c with window := c.window - 1, leaveDue := false, jumpDue := true }) ∧
        (c.splice = .rise →
          let k := min 64 (c.spliceCount + 1)
          x = { advanced with
              spliceCount := k, g := k, last := sent k (values advanced), saturations := counted (values advanced) }))) ∧
  (∀ (f : Cells Int) (set : SetId) (c : Conv) (slot : SlotId) (mode : LinkMode),
    let coef (φ k : Nat) : Int := readCell 0 f (set.val * 1536 + φ * 24 + k)
    let x (k : Int) : Int := (c.ring[(Fin.ofNat 64 (c.rInt + BitVec.ofInt 32 k).toNat)])[slot].toInt
    let φ := c.rFrac.toNat / 262144
    let β := c.rFrac.toNat / 256 % 1024
    (∀ y : Int, saturate24 y = BitVec.ofInt 24 (max (-8388608) (min 8388607 y)) ∧
      (outside24 y = true ↔ y < -8388608 ∨ 8388607 < y)) ∧
    (∀ (y : Sample) (g : Nat), fade y g = BitVec.ofInt 24 ((2 * (y.toInt * g) + 64) / 128)) ∧
    (mode = .direct → slotValue f mode c slot = x 0) ∧
    (mode ≠ .direct → c.filter = some set → slotValue f mode c slot =
      roundDiv ((List.range 24).map fun k : Nat =>
        coef φ k * (1024 - β : Int) * x (k - 11 : Int) +
          (if φ < 63 then coef (φ + 1) k * β * x (k - 11 : Int) else coef 0 k * β * x (k - 10 : Int))).sum 268435456))

/-- SLEW_STEP moves the line delay one frame, CUT_JUMP takes the target at once, CUT_END ends the move. In SLEW with
the slew count at or above S of the programme that lists the channel, SLEW_STEP returns the count to 0, moves
D_line_cur by one toward D_line_tgt, and lets this frame's access read at the old and at the new distance. With
a count below S, nothing changes. In the frame after the fader reached 0 in FALL, CUT_JUMP sets D_line_cur to
D_line_tgt, starts RISE with g = 1 and reads this frame at the new distance. In RISE with the fader at 64,
CUT_END makes the line IDLE when the target equals the delay, and otherwise starts a SLEW with the slew count at
0. In IDLE neither changes anything. The distances that this frame's access reads and the mark of a due jump are
the model's (log entry 2), and so is that S is the active record's in the frame of a take too (log entry 27). -/
def Obligations.LineMoveSteps : Prop :=
  (∀ (s : State) (c : ChannelId) (p : ProgId) (r : ProgRecord), s.lines[c].move = .slew → programmeOf s.active c = some p →
    s.record p = some r →
    let d := if s.lines[c].cur < s.lines[c].tgt then s.lines[c].cur + 1
      else if s.lines[c].tgt < s.lines[c].cur then s.lines[c].cur - 1 else s.lines[c].cur
    (r.slewInterval ≤ s.lines[c].slew →
      exec (.slewStep c) s =
        .next (s.setLine c { s.lines[c] with slew := 0, cur := d, readAt := s.lines[c].cur, readAlso := some d })) ∧
    (s.lines[c].slew < r.slewInterval → exec (.slewStep c) s = .next s)) ∧
  (∀ (s : State) (c : ChannelId),
    (s.lines[c].move = .cutFall → s.lines[c].jumpDue = true →
      exec (.cutJump c) s =
        .next (s.setLine c { s.lines[c] with
            cur := s.lines[c].tgt, move := .cutRise, g := 1, jumpDue := false, readAt := s.lines[c].tgt,
            readAlso := none })) ∧
    (s.lines[c].move = .cutRise → s.lines[c].g = 64 → s.lines[c].tgt = s.lines[c].cur →
      exec (.cutEnd c) s = .next (s.setLine c { s.lines[c] with move := .idle })) ∧
    (s.lines[c].move = .cutRise → s.lines[c].g = 64 → s.lines[c].tgt ≠ s.lines[c].cur →
      exec (.cutEnd c) s = .next (s.setLine c { s.lines[c] with move := .slew, slew := 0 })) ∧
    (s.lines[c].move = .idle → exec (.cutJump c) s = .next s ∧ exec (.cutEnd c) s = .next s))

/-- QUEUE_SERVICE serves the entries that are due, RAMP_STEP moves G_app one tenth toward G_tgt. In a frame whose
service has not been made, QUEUE_SERVICE of a present programme removes from the head every entry whose due
instant has been reached and sets G_tgt to the last one's target clamped to [−cut_max, +boost_max]; with none
due G_tgt stands. Then, with G_app equal to G_tgt the ramp count becomes 0; otherwise it goes up by one, and a
count at or above I leaves the ramp step due. G_app and everything else stand. A programme that is absent, or
has been served, is unchanged. When the ramp count has reached I in this frame, RAMP_STEP returns the count to 0
and moves G_app one tenth toward G_tgt; the new G_app is the one that enters the gain of this frame. A of a
frame is its G_app plus its trim, clamped to [−400, +120]. Otherwise nothing changes. The marks of a service and
a step that are due and the gain of the frame are the model's (log entries 2 and 28). -/
def Obligations.QueueServiceAndRampStep : Prop :=
  (∀ (s : State) (p : ProgId),
    (∀ r : ProgRecord, s.record p = some r → s.gain[p].serviceDue = true →
      let due := s.gain[p].queue.takeWhile fun e => decide ((s.tb.hfc - e.due).toNat < 2147483648)
      let tgt := match due.getLast? with
        | some e => clampInt (-(r.cutMax : Int)) r.boostMax e.target
        | none => s.gain[p].tgt
      let n := if s.gain[p].app = tgt then 0 else s.gain[p].ramp + 1
      exec (.queueService p) s =
        .next (s.setGain p { s.gain[p] with
            queue := s.gain[p].queue.drop due.length, tgt := tgt, ramp := n, serviceDue := false,
            stepDue := decide (s.gain[p].app ≠ tgt ∧ r.interval ≤ n) })) ∧
    (s.record p = none ∨ s.gain[p].serviceDue = false → exec (.queueService p) s = .next s)) ∧
  (∀ (s : State) (p : ProgId),
    (∀ r : ProgRecord, s.record p = some r → s.gain[p].stepDue = true →
      let x := if s.gain[p].app < s.gain[p].tgt then s.gain[p].app + 1
        else if s.gain[p].tgt < s.gain[p].app then s.gain[p].app - 1 else s.gain[p].app
      exec (.rampStep p) s =
        .next (s.setGain p { s.gain[p] with
            ramp := 0, stepDue := false, app := x, frameApp := x })) ∧
    (s.record p = none ∨ s.gain[p].stepDue = false → exec (.rampStep p) s = .next s)) ∧
  (∀ g : Gain, g.applied = clampInt (-400) 120 (g.frameApp + g.frameTrim))

/-- SLICE_BOUNDARY evaluates every enabled rule, leaves its raises and timer-outs due, and makes notices in rule
order. At SLICE_BOUNDARY a disabled rule stays as it is. The condition of an enabled rule is that of its kind,
read from the records, windows, converters, lines and reference state as the boundary leaves them. While it
holds: QUIET goes to ONSET with the raise time in its timer, or is due to be raised when that is 0; ONSET counts
down, and a timer that reaches 0 leaves the rule due to be raised; EASING returns to ACTIVE; HELD returns to
ACTIVE with its ack flag clear and a RAISED notice due. While it does not: ONSET returns to QUIET; ACTIVE goes
to EASING with the clear time, or its timer is out at once when that is 0; EASING counts down until its timer is
out; HELD and QUIET stand. Muted and switched sets stand. The rules that are due stand in ascending number, each
with the value of its kind, the table of R136 in valueRead. The notices of the boundary are made in that order:
the notices of return before the first raise or timer-out are made here, with the queue's limit of 16, and what
follows waits for ALARM_RAISE or ALARM_TIMER_OUT (the model's mark, log entry 12). -/
def Obligations.RuleEvaluation : Prop :=
  ∀ s : State, s.frame.boundaryDue = true →
    ∃ (t : State) (all : List DueRule), exec .sliceBoundary s = .next t ∧
    all.Pairwise (fun d d' => d.rule < d'.rule) ∧
    t.alarm.due = Safety.stillDue all ∧ t.port = Safety.returnsNoted t s.port all ∧
    (∀ d ∈ all, d.value = Safety.valueRead t s.tables.ruleRecords[d.rule]) ∧
    ∀ r : RuleId,
      let e := s.tables.ruleRecords[r]
      let x := s.alarm.rules[r]
      let y := t.alarm.rules[r]
      let c : ChannelId := Fin.ofNat 32 e.subject
      let p : ProgId := Fin.ofNat 8 e.subject
      let l : LinkId := Fin.ofNat 4 e.subject
      let runs := t.cv[l].state = .locked ∨ t.cv[l].state = .splicing
      let holds : Prop := match e.kind with
        | .silence => (t.meas[c].latest.peak : Int) < e.threshold ∧ t.selectedOf c ≠ none
        | .overload => e.threshold ≤ t.meas[c].latest.fsCount
        | .outputClip => e.threshold ≤ t.meas[c].latest.outClips
        | .loudnessHigh => ∃ (q : ProgRecord) (w : Window), t.record p = some q ∧ t.loud[p].window = some w ∧
            e.threshold < w.raw + q.offset
        | .loudnessLow => ∃ (q : ProgRecord) (w : Window), t.record p = some q ∧ t.loud[p].window = some w ∧
            w.raw + q.offset < e.threshold
        | .link => ¬ runs
        | .slip => ∃ k : BitVec 32, t.cv[l].lastSlip = some k ∧ 1 ≤ (t.tb.slice - k).toNat ∧
            ((t.tb.slice - k).toNat : Int) ≤ e.threshold
        | .ratioLimit => runs ∧ t.modeOf l = .convert ∧
            (t.cv[l].qInt = max (t.cv[l].q0 - 65536) 8388608 ∨ t.cv[l].qInt = min (t.cv[l].q0 + 65536) 37748735)
        | .delay => ∃ q : ProgRecord, t.record p = some q ∧
            ∃ m ∈ q.members, t.lines[m.channel].short = true ∨ t.lines[m.channel].clamped = true
        | .reference => t.tb.ref ≠ .locked
      let rests := ∀ d ∈ all, d.rule ≠ r
      let dueTo (k : DueKind) := ({ rule := r, kind := k, value := Safety.valueRead t e } : DueRule) ∈ all
      (e.enabled = false → y = x ∧ rests) ∧
      (e.enabled = true → holds →
        (x.state = .quiet → e.raiseTime = 0 → y = x ∧ dueTo .raising) ∧
        (x.state = .quiet → e.raiseTime ≠ 0 → y = { x with state := .onset, timer := e.raiseTime } ∧ rests) ∧
        (x.state = .onset → x.timer ≤ 1 → y = { x with timer := 0 } ∧ dueTo .raising) ∧
        (x.state = .onset → 1 < x.timer → y = { x with timer := x.timer - 1 } ∧ rests) ∧
        (x.state = .active → y = x ∧ rests) ∧
        (x.state = .easing → y = { x with state := .active, timer := 0 } ∧ rests) ∧
        (x.state = .held → y = { x with state := .active, timer := 0, ack := false } ∧ dueTo .returning)) ∧
      (e.enabled = true → ¬ holds →
        (x.state = .quiet → y = x ∧ rests) ∧
        (x.state = .onset → y = { x with state := .quiet, timer := 0 } ∧ rests) ∧
        (x.state = .active → e.clearTime = 0 → y = x ∧ dueTo .timerOut) ∧
        (x.state = .active → e.clearTime ≠ 0 → y = { x with state := .easing, timer := e.clearTime } ∧ rests) ∧
        (x.state = .easing → x.timer ≤ 1 → y = { x with timer := 0 } ∧ dueTo .timerOut) ∧
        (x.state = .easing → 1 < x.timer → y = { x with timer := x.timer - 1 } ∧ rests) ∧
        (x.state = .held → y = x ∧ rests))

/-- ALARM_RAISE enters ACTIVE, applies the action and makes a RAISED notice. When the boundary's evaluation has
found that a rule is to be raised, and no rule before it is due (log entry 12), ALARM_RAISE puts it in ACTIVE
with timer 0 and ack flag clear, and makes a RAISED notice with the rule's severity, kind, subject, the slice
index and the value the evaluation read; it joins the notice queue when that holds fewer than 16 and is counted
as lost otherwise. The notices of return that waited for it follow, up to the next raise or timer-out. A MUTE
action puts the rule in the reason set of each named programme, leaves every other programme as it is, and
records them as the muted set: by the subject, the programme that lists the channel, the programme itself when
present, those with a member selected on the link, or all present ones. A BACKUP action switches exactly the
channels it aims at (the channel, the programme's members, those with their primary on the link, or all 32) that
are in PRIMARY with a backup whose link is LOCKED or SPLICING, records them, and leaves the source state of
every other channel. A line whose selected source changes answers with a CUT aimed by R61, and every other line
stands. An action NONE leaves both sets empty, and only MUTE touches gain state, only BACKUP sources and lines.
The other rules and everything else are unchanged. -/
def Obligations.AlarmRaiseRule : Prop :=
  ∀ (s : State) (r : RuleId) (v : Int) (rest : List DueRule),
    s.alarm.due = { rule := r, kind := .raising, value := v } :: rest →
    let e := s.tables.ruleRecords[r]
    ∃ t : State, exec (.alarmRaise r) s = .next t ∧
      t.alarm.rules[r].state = .active ∧ t.alarm.rules[r].timer = 0 ∧ t.alarm.rules[r].ack = false ∧
      t.port = Safety.returnsNoted s (Safety.noted s s.port r .raised v) rest ∧
      t.alarm.due = Safety.stillDue rest ∧ (∀ q : RuleId, q ≠ r → t.alarm.rules[q] = s.alarm.rules[q]) ∧
      (e.action = .none → t.alarm.rules[r].muted = 0#8 ∧ t.alarm.rules[r].switched = 0#32) ∧
      (e.action = .mute → t.alarm.rules[r].switched = 0#32 ∧ ∀ p : ProgId,
        (hasMember t.alarm.rules[r].muted p = true ↔ Safety.Names s e p) ∧
        (Safety.Names s e p → t.gain[p] = { s.gain[p] with reasons := insertMember s.gain[p].reasons r }) ∧
        (¬ Safety.Names s e p → t.gain[p] = s.gain[p])) ∧
      (e.action = .backup → t.alarm.rules[r].muted = 0#8 ∧ ∀ c : ChannelId,
        (hasMember t.alarm.rules[r].switched c = true ↔ Safety.Aims s e c ∧ Safety.Switchable s c) ∧
        (Safety.Aims s e c → Safety.Switchable s c → t.sources[c] = .backup) ∧
        (¬ (Safety.Aims s e c ∧ Safety.Switchable s c) → t.sources[c] = s.sources[c])) ∧
      (∀ c : ChannelId, Safety.LineFollows s t c) ∧
      (e.action ≠ .mute → t.gain = s.gain) ∧
      (e.action ≠ .backup → t.sources = s.sources ∧ t.lines = s.lines) ∧
      t = { s with gain := t.gain, alarm := t.alarm, sources := t.sources, lines := t.lines, port := t.port }

/-- ALARM_TIMER_OUT holds a latched rule and clears any other. When a rule's clear timer has run out, and no rule
before it is due (log entry 12), ALARM_TIMER_OUT puts a rule with latch yes and its ack flag clear in HELD, with
its muted and switched sets kept and a HELD notice, and leaves reasons, sources and lines; any other rule goes
to QUIET with its ack flag clear, both sets empty and a CLEARED notice. It then releases its actions. Its number
leaves the reason set of every present programme of its muted set, and the rest of every programme's gain state
and every other reason stand. A channel of its switched set in BACKUP goes to PRIMARY when its revert is AUTO
and its primary's link is LOCKED, waits for that link when it is not, and stays in BACKUP when its revert is
MANUAL; every other channel keeps its source state. A line whose selected source changes answers with a CUT, and
every other line stands. A notice that finds 16 waiting is lost and counted, and the notices of return that
waited for this rule follow it in rule order. The other rules and everything else are unchanged. -/
def Obligations.AlarmTimerOutRule : Prop :=
  ∀ (s : State) (r : RuleId) (v : Int) (rest : List DueRule),
    s.alarm.due = { rule := r, kind := .timerOut, value := v } :: rest →
    let held := s.tables.ruleRecords[r].latch = true ∧ s.alarm.rules[r].ack = false
    ∃ t : State, exec (.alarmTimerOut r) s = .next t ∧
      t.port = Safety.returnsNoted s (Safety.noted s s.port r (if held then .held else .cleared) v) rest ∧
      t.alarm.due = Safety.stillDue rest ∧ (∀ q : RuleId, q ≠ r → t.alarm.rules[q] = s.alarm.rules[q]) ∧
      (held → t.alarm.rules[r] = { s.alarm.rules[r] with state := .held, timer := 0, ack := false } ∧ t.gain = s.gain ∧
        t.sources = s.sources ∧ t.lines = s.lines) ∧
      (¬ held →
        t.alarm.rules[r] = { state := .quiet, timer := 0, ack := false, muted := 0#8, switched := 0#32 } ∧
        Safety.Released s t (fun q => q = r)) ∧
      t = { s with gain := t.gain, alarm := t.alarm, sources := t.sources, lines := t.lines, port := t.port }

/-- TAKE_SWAP makes the standby bank active and every block answers, COPY_BACK_COMPLETE makes the last copy. With
the banks ARMED, the pending instant reached and no rule due (log entry 12), TAKE_SWAP changes the marker,
clears the pending instant and starts COPYING at position 0; the former standby bank is active. A channel whose
SLOT_MAP entry changes in any field goes to PRIMARY, one whose entry is equal keeps its source state; the
changed channels leave every switched set and carry their selected source in the swap frame already, and the
others stay as they are. A changed REGIONS entry sets V and the write pointer to 0 and the delay to its target,
by R61 from the new bank, without a move. Any other line answers once: a changed selected source with a CUT in
any case, another programme or a new D_t under move mode CUT with a recompute of class CUT, a new D_t under SLEW
with one of class SLEW, each by the move in flight; with none of these the line stands. A programme that becomes
present starts with cleared measurement and a fresh gain state; one that stays present keeps G_app, fader and
reasons, with G_tgt clamped into its new limits, and its history and queue exactly when its members and weights
are unchanged. A programme that becomes absent loses its measurement and leaves every muted set, and every other
programme stays in its own; rule states, timers and ack flags stand. The HFC and the delay store are unchanged.
Before the instant nothing changes. In the house frame of the 104th copy, at copy position 103,
COPY_BACK_COMPLETE copies REGIONS 31 into the standby bank, raises the position to 104 and makes the bank state
EDITING, and changes nothing else; in any other frame and state it changes nothing. That the position then stays
at 104 is DEDUCED (log entry 21). The selected source of the frame and the distance of its access are marks of
the model (log entry 2), the slew count 0 of a slew that a retarget ends is its choice (log entry 32). -/
def Obligations.TakeSwapAndCopyBack : Prop :=
  (∀ (s : State) (i : Instant), s.tables.bankState = .armed → s.tables.pendingInstant = some i →
    s.alarm.due = [] →
    (2147483648 ≤ (s.tb.hfc - i).toNat → exec .takeSwap s = .next s) ∧
    ((s.tb.hfc - i).toNat < 2147483648 →
      ∃ t : State, exec .takeSwap s = .next t ∧
        t.tables = { s.tables with
            marker := !s.tables.marker, pendingInstant := none, copyPos := 0, bankState := .copying } ∧
        t.active = standbyBank s.tables ∧ standbyBank t.tables = s.active ∧
        (∀ c : ChannelId, t.sources[c] = if s.active.slotMap[c] = t.active.slotMap[c] then s.sources[c] else .primary) ∧
        (∀ c : ChannelId, t.frame.selected[c] =
          if s.active.slotMap[c] = t.active.slotMap[c] then s.frame.selected[c] else t.selectedOf c) ∧
        (∀ (r : RuleId) (c : ChannelId), hasMember t.alarm.rules[r].switched c =
          (hasMember s.alarm.rules[r].switched c && decide (s.active.slotMap[c] = t.active.slotMap[c]))) ∧
        (∀ (r : RuleId) (p : ProgId), hasMember t.alarm.rules[r].muted p =
          (hasMember s.alarm.rules[r].muted p && !decide (s.record p ≠ none ∧ t.record p = none))) ∧
        (∀ c : ChannelId, s.active.regions[c] ≠ t.active.regions[c] →
          Safety.SetAtOnce t c s.lines[c] t.lines[c] 0) ∧
        (∀ c : ChannelId, s.active.regions[c] = t.active.regions[c] →
          let sourceChange := t.selectedOf c ≠ s.selectedOf c
          let joins := programmeOf t.active c ≠ programmeOf s.active c
          let delayChange := (t.recordOf c).map (·.dt) ≠ (s.recordOf c).map (·.dt)
          let mode := (t.recordOf c).map (·.moveMode)
          (sourceChange → Safety.CutAnswer t c s.lines[c] t.lines[c] true) ∧
          (¬ sourceChange → joins ∨ (delayChange ∧ mode = some .cut) →
            Safety.CutAnswer t c s.lines[c] t.lines[c] false) ∧
          (¬ sourceChange → ¬ joins → delayChange → mode = some .slew →
            Safety.SlewAnswer t c s.lines[c] t.lines[c]) ∧
          (¬ sourceChange → ¬ joins → ¬ delayChange → t.lines[c] = s.lines[c])) ∧
        (∀ (p : ProgId) (n : ProgRecord), s.record p = none → t.record p = some n →
          t.loud[p] = { history := [], window := none, sum := 0, count := 0 } ∧ t.gain[p].queue = [] ∧
          t.gain[p].tgt = 0 ∧ t.gain[p].app = 0 ∧ t.gain[p].ramp = 0 ∧ t.gain[p].decision = .noLevel ∧
          t.gain[p].reasons = 0#32 ∧ t.gain[p].command = false ∧ t.gain[p].fader = 64) ∧
        (∀ (p : ProgId) (o n : ProgRecord), s.record p = some o → t.record p = some n →
          t.gain[p].app = s.gain[p].app ∧ t.gain[p].fader = s.gain[p].fader ∧ t.gain[p].reasons = s.gain[p].reasons ∧
          t.gain[p].command = s.gain[p].command ∧
          (o ≠ n → t.gain[p].tgt = clampInt (-(n.cutMax : Int)) n.boostMax s.gain[p].tgt) ∧
          (sameMembers o.members n.members = true → t.loud[p] = s.loud[p] ∧ t.gain[p].queue = s.gain[p].queue) ∧
          (sameMembers o.members n.members = false →
            t.loud[p] = { history := [], window := none, sum := 0, count := 0 } ∧ t.gain[p].queue = [])) ∧
        (∀ (p : ProgId) (o : ProgRecord), s.record p = some o → t.record p = none →
          t.loud[p] = { history := [], window := none, sum := 0, count := 0 }) ∧
        t.alarm.due = [] ∧
        (∀ r : RuleId, t.alarm.rules[r].state = s.alarm.rules[r].state ∧ t.alarm.rules[r].timer = s.alarm.rules[r].timer ∧
          t.alarm.rules[r].ack = s.alarm.rules[r].ack) ∧
        t.tb = s.tb ∧ t.store = s.store ∧ t.meas = s.meas ∧ t.cv = s.cv ∧ t.rx = s.rx ∧ t.port = s.port ∧
        t.frame = { s.frame with selected := t.frame.selected })) ∧
  (∀ s : State,
    (s.tables.bankState = .copying → s.tables.copyPos = 103 → s.frame.copyDue = true →
      ∃ t : State, exec .copyBackComplete s = .next t ∧ t.tables.bankState = .editing ∧ t.tables.copyPos = 104 ∧
        t.active = s.active ∧
        standbyBank t.tables = { standbyBank s.tables with
            regions := (standbyBank s.tables).regions.set 31 s.active.regions[(31 : ChannelId)] } ∧
        t.tables.marker = s.tables.marker ∧ t.tables.ruleRecords = s.tables.ruleRecords ∧
        t.tables.linkConfig = s.tables.linkConfig ∧ t.tables.filters = s.tables.filters ∧
        t.tables.setSelect = s.tables.setSelect ∧ t.tables.weighting = s.tables.weighting ∧
        t.tables.pendingInstant = s.tables.pendingInstant ∧
        t = { s with tables := t.tables, frame := { s.frame with copyDue := false } }) ∧
    (s.tables.bankState ≠ .copying ∨ s.tables.copyPos ≠ 103 ∨ s.frame.copyDue = false →
      exec .copyBackComplete s = .next s))

/-- MESSAGE_BOUNDARY starts the next message in turn, and each house frame carries two of its bytes. At a message
boundary the arbiter looks at the queues in the order RELAY, REPLY, NOTICE, starting after the one last served.
It removes the head of the first that is not empty, makes it the message in flight with its first two bytes in
this frame's service slot and the start mark set, and records the queue; a notice is 17 bytes long as a message.
With all three empty the frame carries no bytes and last served is unchanged. A message already in flight is not
disturbed. When nothing of the frame in progress is still due, HOUSE_FRAME sends the frame's bytes on H0 with
their present marks and the start mark on the first of a message, and begins the next frame with the next two
bytes of the message in flight, or the last one alone, without a start mark; once all bytes are sent the message
is over, and the frame is a message boundary. The marks of the frame's turn and bytes are the model's (log entry
2). -/
def Obligations.MessageBoundaryRoundRobin : Prop :=
  ∀ s : State,
    (s.frame.arbiterTurn = true → s.port.flight = none →
      ((s.port.relay = [] ∧ s.port.replies = [] ∧ s.port.notices = [] →
        exec .messageBoundary s =
          .next { s with frame := { s.frame with arbiterTurn := false, service := [], serviceStart := false } }) ∧
      (∀ (m : List Byte) (rest : List (List Byte)), s.port.relay = m :: rest →
        (s.port.lastServed = .notice ∨ (s.port.lastServed = .reply ∧ s.port.notices = []) ∨
          (s.port.lastServed = .relay ∧ s.port.replies = [] ∧ s.port.notices = [])) →
        exec .messageBoundary s =
          .next { s with
              frame := { s.frame with arbiterTurn := false, service := m.take 2, serviceStart := true },
              port := { s.port with
                  relay := rest, lastServed := .relay, flight := some { bytes := m, sent := min 2 m.length } } }) ∧
      (∀ (m : Message) (rest : List Message), s.port.replies = m :: rest →
        (s.port.lastServed = .relay ∨ (s.port.lastServed = .notice ∧ s.port.relay = []) ∨
          (s.port.lastServed = .reply ∧ s.port.notices = [] ∧ s.port.relay = [])) →
        exec .messageBoundary s =
          .next { s with
              frame := { s.frame with
                  arbiterTurn := false, service := (messageBytes m).take 2, serviceStart := true },
              port := { s.port with
                  replies := rest, lastServed := .reply,
                  flight := some { bytes := messageBytes m, sent := min 2 (messageBytes m).length } } }) ∧
      (∀ (n : Notice) (rest : List Notice), s.port.notices = n :: rest →
        (s.port.lastServed = .reply ∨ (s.port.lastServed = .relay ∧ s.port.replies = []) ∨
          (s.port.lastServed = .notice ∧ s.port.relay = [] ∧ s.port.replies = [])) →
        let bytes := messageBytes { addr := s.port.addr, kind := .notice, tag := n.seq, code := eventCode n.event,
                                    payload := noticePayload n }
        bytes.length = 17 ∧
          exec .messageBoundary s =
            .next { s with
                frame := { s.frame with arbiterTurn := false, service := bytes.take 2, serviceStart := true },
                port := { s.port with
                    notices := rest, lastServed := .notice, flight := some { bytes := bytes, sent := 2 } } }))) ∧
    (∀ f : Flight, s.port.flight = some f → exec .messageBoundary s = .next s) ∧
    (∀ b : Nat, s.tb.boundary = some b → settleTimebase s.tb = s.tb → s.settleFrame = s → Safety.RegionsFit s →
      ∃ t : State, exec .houseFrame s = .next t ∧
        t.h0.present0 = !s.frame.service.isEmpty ∧ t.h0.byte0 = s.frame.service.getD 0 0#8 ∧
        t.h0.present1 = decide (2 ≤ s.frame.service.length) ∧ t.h0.byte1 = s.frame.service.getD 1 0#8 ∧
        t.h0.start = (s.frame.serviceStart && !s.frame.service.isEmpty) ∧
        (∀ f : Flight, s.port.flight = some f → f.sent < f.bytes.length →
          t.frame.service = (f.bytes.drop f.sent).take 2 ∧ t.frame.serviceStart = false ∧ t.frame.arbiterTurn = false ∧
          t.port = { s.port with flight := some { bytes := f.bytes, sent := min (f.sent + 2) f.bytes.length } }) ∧
        (∀ f : Flight, s.port.flight = some f → f.bytes.length ≤ f.sent →
          t.frame.service = [] ∧ t.frame.serviceStart = false ∧ t.frame.arbiterTurn = true ∧
          t.port = { s.port with flight := none }) ∧
        (s.port.flight = none → t.frame.service = [] ∧ t.frame.serviceStart = false ∧ t.frame.arbiterTurn = true ∧
          t.port = s.port))

/-- A command that is refused makes no change to any state. For every code, known or not, every payload and every
state: when the reply's status is not OK, the command has left the state as it was. -/
def Obligations.RefusalsChangeNothing : Prop :=
  ∀ (code : Byte) (s : State) (payload : List Byte),
    (commandOf code s payload).2.head? ≠ some 0#8 → (commandOf code s payload).1 = s

/-- An executed command's reply is queued, held or not made for a broadcast; HELD_REPLY_PLACED places a held one.
After a command is executed: a unicast command's reply has this unit's address, kind REPLY and the command's tag
and code, joins the tail of the reply queue when it holds fewer than 8, and is otherwise held by the executor. A
command to address 63 gets no reply. In HOLDING, in a house frame in which the executor has not acted,
HELD_REPLY_PLACED puts the held reply at the tail of the reply queue when that holds fewer than 8 and the
executor is IDLE again; with 8 it goes on holding. Either way the command queue stands and the frame's turn is
used. The mark of the frame's turn is the model's (log entry 3). -/
def Obligations.ReplyPlacements : Prop :=
  (∀ (s : State) (m : Message) (payload : List Byte),
    (m.addr = 63#6 → s.answer m payload = s) ∧
    (m.addr ≠ 63#6 → s.port.replies.length < 8 →
      s.answer m payload = { s with
          port := { s.port with
              replies := s.port.replies ++ [{ addr := s.port.addr, kind := .reply, tag := m.tag, code := m.code, payload := payload }] } }) ∧
    (m.addr ≠ 63#6 → 8 ≤ s.port.replies.length →
      s.answer m payload = { s with
          port := { s.port with
              holding := some { addr := s.port.addr, kind := .reply, tag := m.tag, code := m.code,
                                payload := payload } } })) ∧
  (∀ (s : State) (m : Message), s.frame.executorTurn = true → s.port.holding = some m →
    (s.port.replies.length < 8 →
      exec .heldReplyPlaced s =
        .next { s with
            frame := { s.frame with executorTurn := false },
            port := { s.port with replies := s.port.replies ++ [m], holding := none } }) ∧
    (8 ≤ s.port.replies.length →
      exec .heldReplyPlaced s = .next { s with frame := { s.frame with executorTurn := false } }))

/-- READ STATUS returns 120 bytes and with CLEAR clears the flag and the counts after taking them. READ_STATUS with
NO_CLEAR answers OK with 120 bytes of results and changes no state. With CLEAR it answers the same bytes, then
clears the reference-lost flag, the parity and alignment error counts of all receivers, the slip and saturation
counts of all converters, the notices-lost count and the eight error counts, and nothing else. Another option is
refused with BAD_VALUE. The results are those of section 11.6, byte by byte, as they stood before the clear: the
timebase; each receiver and each converter with its state code and two counts; the notices lost, the three alarm
lines and a byte for each rule; the bank state, marker, pending instant and copy position; the eight error
counts, the entries of the four management queues with this command already taken, an executor that is IDLE, and
the assembler. -/
def Obligations.ReadStatusClears : Prop :=
  ∀ (s : State) (m : Message) (rest : List Message), Safety.Ready s m rest 0x02#8 →
    let b (n : Nat) : Byte := BitVec.ofNat 8 n
    let f (x : Bool) : Nat := if x then 1 else 0
    let up (r : RuleId) : Bool := s.alarm.rules[r].state == .active || s.alarm.rules[r].state == .easing ||
      s.alarm.rules[r].state == .held
    let driven (sev : Severity) : Nat := f (allRules.any fun r =>
      s.tables.ruleRecords[r].enabled && s.tables.ruleRecords[r].severity == sev && up r)
    let e := s.port.errors
    let results : List Byte :=
      [match s.tb.ref with
        | .absent => 0#8
        | .locked => 1#8
        | .holdover => 2#8
        | .regain => 3#8, b (f s.tb.lost)] ++
      beBytes 4 s.tb.held ++ beBytes 4 s.tb.hfc.toNat ++ beBytes 4 s.tb.slice.toNat ++ beBytes 2 s.tb.phase ++
      ([0, 1, 2, 3].flatMap fun l : LinkId =>
        [match s.rx[l].state with
          | .silent => 0#8
          | .hunting => 1#8
          | .framed => 2#8] ++ beBytes 2 s.rx[l].parityErrors ++ beBytes 2 s.rx[l].alignErrors) ++
      ([0, 1, 2, 3].flatMap fun l : LinkId =>
        [match s.cv[l].state with
          | .dark => 0#8
          | .acquiring => 1#8
          | .unsupported => 2#8
          | .locked => 3#8
          | .splicing => 4#8] ++ beBytes 2 s.cv[l].slips ++ beBytes 2 s.cv[l].saturations) ++
      [b s.port.noticesLost, b (4 * driven .major + 2 * driven .minor + driven .notice)] ++
      ((List.finRange 32).map fun r : RuleId => b (128 * f s.alarm.rules[r].ack + match s.alarm.rules[r].state with
        | .quiet => 0
        | .onset => 1
        | .active => 2
        | .easing => 3
        | .held => 4)) ++
      [match s.tables.bankState with
        | .editing => 0#8
        | .armed => 1#8
        | .copying => 2#8, b (f s.tables.marker), b (f s.tables.pendingInstant.isSome)] ++
      beBytes 4 (s.tables.pendingInstant.getD 0#32).toNat ++ [b s.tables.copyPos] ++
      beBytes 2 e.crc ++ beBytes 2 e.header ++ beBytes 2 e.interrupted ++ beBytes 2 e.frameFault ++ beBytes 2 e.timeout ++
      beBytes 2 e.linkLoss ++ beBytes 2 e.relayOverflow ++ beBytes 2 e.commandOverflow ++
      [b s.port.relay.length, b rest.length, b s.port.replies.length, b s.port.notices.length, 0#8,
        b (f s.port.assembler.collecting)]
    results.length = 120 ∧
      (m.payload = [0#8] → exec .readStatus s = .next ((s.takeCommand rest).answer m (0#8 :: results))) ∧
      (m.payload = [1#8] → ∃ t : State, exec .readStatus s = .next (t.answer m (0#8 :: results)) ∧
        t.tb = { s.tb with lost := false } ∧
        (∀ l : LinkId, t.rx[l] = { s.rx[l] with parityErrors := 0, alignErrors := 0 } ∧
          t.cv[l] = { s.cv[l] with slips := 0, saturations := 0 }) ∧
        t.port = { (s.takeCommand rest).port with noticesLost := 0, errors := zeroErrors } ∧
        t = { s.takeCommand rest with tb := t.tb, rx := t.rx, cv := t.cv, port := t.port }) ∧
      (∀ c : Byte, m.payload = [c] → 1 < c.toNat → exec .readStatus s = .next ((s.takeCommand rest).answer m [4#8]))

/-- IDENTIFY returns the part's identity and resets, UNKNOWN_CODE answers BAD_CODE. IDENTIFY with no payload answers
OK with part code 3204, revision 1, UNIT_ADDR, MGMT_LINK, house rate, reset cause, the last domain mask with its
HFC (zeros for none) and the HFC, most significant byte first, and changes no state. With any payload it answers
BAD_LENGTH. When the head command's code is none of the 23 command codes, UNKNOWN_CODE removes it from the
command queue and answers status 2, BAD_CODE, alone. -/
def Obligations.IdentifyAndUnknownCode : Prop :=
  (∀ (s : State) (m : Message) (rest : List Message), Safety.Ready s m rest 0x01#8 →
    (m.payload = [] → exec .identify s = .next ((s.takeCommand rest).answer m
      ([0#8, 0x0C#8, 0x84#8, 1#8, BitVec.ofNat 8 s.port.addr.toNat, BitVec.ofNat 8 s.port.mlk.val,
        (if s.tb.rate96 then 1#8 else 0#8), (if s.port.cause = .powerOn then 0#8 else 1#8)] ++
        (match s.port.domain with
          | none => [0#8, 0#8, 0#8, 0#8, 0#8]
          | some d => [d.1, d.2.extractLsb' 24 8, d.2.extractLsb' 16 8, d.2.extractLsb' 8 8, d.2.extractLsb' 0 8]) ++
        [s.tb.hfc.extractLsb' 24 8, s.tb.hfc.extractLsb' 16 8, s.tb.hfc.extractLsb' 8 8,
          s.tb.hfc.extractLsb' 0 8]))) ∧
    (m.payload ≠ [] → exec .identify s = .next ((s.takeCommand rest).answer m [1#8]))) ∧
  (∀ (s : State) (m : Message) (rest : List Message), Safety.Ready s m rest m.code →
    m.code.toNat ∉ [0x01, 0x02, 0x03, 0x04, 0x05, 0x10, 0x11, 0x12, 0x18, 0x19, 0x20, 0x21, 0x22, 0x28, 0x29, 0x30, 0x31,
      0x32, 0x38, 0x40, 0x41, 0x42, 0x48] →
    exec .unknownCode s = .next ((s.takeCommand rest).answer m [2#8]))

/-- READ LINK, READ PROGRAMME and READ SLICE answer OK with their figures and change no state. READ_LINK of link 0
to 3 answers OK with the fields of section 11.6 in their order: receiver, mode, converter, Q0, Q_int, the
measured rate in Hz, the fill and the filter set (0 and 255 outside LOCKED and SPLICING), L_c, counts, the
RATIO_LIMIT and last slip flags, the last slip slice, and four bytes for each channel whose active entry names
the link; 34 bytes and four for each such channel, at most 162 in all. READ_SLICE of a range inside the 32
channels answers OK with the first channel, the number of records returned (the count requested, or 20 if
fewer), the slice covered, and 12 bytes for each latest record. READ_PROGRAMME of an absent programme answers
its number and a clear flag; of a present one its members, loudness, delay and gain figures in the order of
section 11.6, 69 bytes plus 16 for each member. None of them changes any state of the part. Of a present
programme with no power formed, the latest power is a free value and only the model's counter of free values
moves (log entry 8); the marks of a latest window that is none read 0 (log entry 31). -/
def Obligations.ReadsChangeNoState : Prop :=
  ∀ (s : State) (m : Message) (rest : List Message) (a : Byte),
    let b (n : Nat) : Byte := BitVec.ofNat 8 n
    let f (x : Bool) : Nat := if x then 1 else 0
    (Safety.Ready s m rest 0x03#8 → m.payload = [a] → a.toNat ≤ 3 →
      let l : LinkId := Fin.ofNat 4 a.toNat
      let c := s.cv[l]
      let mode := s.modeOf l
      let runs := c.state = .locked ∨ c.state = .splicing
      let rate : Nat := if s.tb.rate96 then 96000 else 48000
      let use (ch : ChannelId) : Nat :=
        f (s.active.slotMap[ch].primary.any fun x => x.link == l) + 2 * f (s.active.slotMap[ch].backup.any fun x => x.link == l)
      let listed := (List.finRange 32).filter fun ch => use ch != 0
      let results : List Byte :=
        [a, match s.rx[l].state with
          | .silent => 0#8
          | .hunting => 1#8
          | .framed => 2#8] ++ beBytes 2 s.rx[l].parityErrors ++ beBytes 2 s.rx[l].alignErrors ++
        [match mode with
          | .off => 0#8
          | .convert => 1#8
          | .direct => 2#8, match c.state with
          | .dark => 0#8
          | .acquiring => 1#8
          | .unsupported => 2#8
          | .locked => 3#8
          | .splicing => 4#8] ++ beBytes 4 c.q0 ++ beBytes 4 c.qInt ++
        beBytes 4 (if mode = .direct ∧ runs then rate else (2 * (c.qInt * rate) + 16777216) / 33554432) ++
        beSigned 2 (if runs then c.fill else 0) ++
        [b c.lc, if mode ≠ .direct ∧ runs then (match c.filter with
          | some set => b set.val
          | none => 255#8) else 255#8] ++ beBytes 2 c.slips ++ beBytes 2 c.saturations ++
        [b ((if runs ∧ mode = .convert ∧ (c.qInt = max (c.q0 - 65536) 8388608 ∨ c.qInt = min (c.q0 + 65536) 37748735) then 1
          else 0) + 2 * f c.lastSlip.isSome)] ++ beBytes 4 (c.lastSlip.getD 0#32).toNat ++ [b listed.length] ++
        listed.flatMap fun ch => [b ch.val, b (use ch), match s.sources[ch] with
          | .primary => 0#8
          | .backup => 1#8
          | .pending => 2#8, match (List.finRange 32).find? fun r : RuleId => hasMember s.alarm.rules[r].switched ch with
          | some r => b r.val
          | none => 255#8]
      exec .readLink s = .next ((s.takeCommand rest).answer m (0#8 :: results)) ∧
        results.length = 34 + 4 * listed.length ∧ results.length ≤ 162) ∧
    (∀ n : Byte, Safety.Ready s m rest 0x05#8 → m.payload = [a, n] → 1 ≤ n.toNat → a.toNat + n.toNat ≤ 32 →
      let latest (i : Nat) : Latest := s.meas[(Fin.ofNat 32 (a.toNat + i) : ChannelId)].latest
      let results : List Byte :=
        [a, b (min n.toNat 20), b (f (latest 0).covers.isSome)] ++ beBytes 4 ((latest 0).covers.getD 0#32).toNat ++
        (List.range (min n.toNat 20)).flatMap fun i =>
          beBytes 5 (latest i).ms ++ beBytes 3 (latest i).peak ++ beBytes 2 (latest i).fsCount ++ beBytes 2 (latest i).outClips
      exec .readSlice s = .next ((s.takeCommand rest).answer m (0#8 :: results)) ∧
        results.length = 7 + 12 * min n.toNat 20) ∧
    (Safety.Ready s m rest 0x04#8 → m.payload = [a] → a.toNat ≤ 7 →
      let p : ProgId := Fin.ofNat 8 a.toNat
      let u := s.loud[p]
      let g := s.gain[p]
      (s.record p = none → exec .readProgramme s = .next ((s.takeCommand rest).answer m [0#8, a, 0#8])) ∧
      (∀ r : ProgRecord, s.record p = some r →
        let results (power : Nat) : List Byte :=
          [a, 1#8, b r.members.length] ++ (r.members.flatMap fun x => [b x.channel.val, b x.weight]) ++
          beBytes 6 power ++ [b u.history.length] ++
          beSigned 2 (match u.window with
            | some w => w.raw + r.offset
            | none => -32768) ++
          [b (match u.window with
            | some w => f w.gatedIn + 2 * f w.admitted
            | none => 0)] ++ beBytes 8 u.sum ++ beBytes 2 u.count ++
          beSigned 2 (if u.count = 0 then -32768 else rawLevel (u.sum / u.count) + r.offset) ++
          beBytes 2 (s.lookahead p) ++
          (r.members.flatMap fun x =>
            let i := s.lines[x.channel]
            (match s.regionOf x.channel with
              | some y => beBytes 2 y.base ++ beBytes 2 y.count
              | none => [0#8, 0#8, 0#8, 0#8]) ++ beBytes 3 i.v ++ beBytes 2 i.cur ++ beBytes 2 i.tgt ++
            [match i.move with
              | .idle => 0#8
              | .slew => 1#8
              | .cutFall => 2#8
              | .cutRise => 3#8, b i.g, b (f i.short + 2 * f i.clamped)]) ++
          beSigned 2 g.tgt ++ beSigned 2 g.app ++ beBytes 2 g.ramp ++ [b g.queue.length] ++
          ([0, 1, 2, 3].flatMap fun i : Nat => match g.queue[i]? with
            | some x => beBytes 4 x.due.toNat ++ beSigned 2 x.target
            | none => [0#8, 0#8, 0#8, 0#8, 0#8, 0#8]) ++
          [match g.decision with
            | .noLevel => 0#8
            | .withinDeadband => 1#8
            | .appended => 2#8
            | .coalesced => 3#8] ++ beSigned 2 (g.gNew.getD (-32768)) ++ beBytes 4 g.reasons.toNat ++
          [b (f g.command), b g.fader] ++ beSigned 2 (clampInt (-400) 120 (g.app + r.trim))
        (∀ power : Nat, (results power).length = 69 + 16 * r.members.length) ∧
        (∀ (x : Nat) (xs : List Nat), u.history = x :: xs →
          exec .readProgramme s = .next ((s.takeCommand rest).answer m (0#8 :: results x))) ∧
        (u.history = [] → ∃ power : Nat,
          exec .readProgramme s = .next ((s.takeCommand rest).tookFree.answer m (0#8 :: results power)))))

/-- READ ENTRIES returns the longest run of whole records that fits. READ_ENTRIES of entries inside a table, from a
bank that may be read, answers OK with table, bank, first index, the number of records and the records in
ascending index: they are the first records asked for, they take at most 241 bytes, and when fewer than asked
for are returned the next would not have fitted. It changes no state. A read of the standby bank of a banked
table in COPYING is refused with BUSY. -/
def Obligations.ReadEntriesReturnsWholeRecords : Prop :=
  ∀ (s : State) (m : Message) (rest : List Message) (code bank f1 f0 n1 n0 : Byte) (name : TableName),
    Safety.Ready s m rest 0x10#8 → m.payload = [code, bank, f1, f0, n1, n0] → tableOf code.toNat = some name →
    bank.toNat ≤ 1 → 1 ≤ n1.toNat * 256 + n0.toNat →
    f1.toNat * 256 + f0.toNat + (n1.toNat * 256 + n0.toNat) ≤ tableSize name →
    (banked name = true → bank = 1#8 → s.tables.bankState = .copying →
      exec .readEntries s = .next ((s.takeCommand rest).answer m [6#8])) ∧
    (¬ (banked name = true ∧ bank = 1#8 ∧ s.tables.bankState = .copying) →
      ∃ records : List (List Byte),
        exec .readEntries s = .next ((s.takeCommand rest).answer m
          ([0#8, code, bank, f1, f0] ++ beBytes 2 records.length ++ records.flatten)) ∧
        records.length ≤ n1.toNat * 256 + n0.toNat ∧ records.flatten.length ≤ 241 ∧
        (∀ k : Nat, k < records.length → records[k]? = some (recordBytes
          (entryOf s.tables (if bank = 1#8 then standbyBank s.tables else activeBank s.tables) name
            (f1.toNat * 256 + f0.toNat + k)))) ∧
        (records.length < n1.toNat * 256 + n0.toNat →
          241 < records.flatten.length + (recordBytes
            (entryOf s.tables (if bank = 1#8 then standbyBank s.tables else activeBank s.tables) name
              (f1.toNat * 256 + f0.toNat + records.length))).length))

/-- WRITE ENTRIES writes its records and no other entry, FILL ENTRIES writes its record into r + 1 entries.
WRITE_ENTRIES of one record or several that their table accepts, at indices inside the table, with the banks
EDITING for a banked table, no use of the sets for FILTER_SETS, and the enabled bounds of SET_SELECT rising in
the table as it would stand, answers OK with the table, the first index and the number written. FILL_ENTRIES of
one such record with repeat r does the same for r + 1 entries, in banked and unbanked tables alike, and answers
r + 1. Read back, the entries from the first on are the records, in ascending index; every other entry of every
table and of the standby bank, the active bank, its marker, the bank state, a pending instant and the copy
position are unchanged. A write outside LINK_CONFIG and ALARM_RULES changes the tables alone; a LINK_CONFIG
record with another mode darkens its link's converter, and an ALARM_RULES record leaves its rule in QUIET with
timer 0 and ack flag clear (UnbankedTableRules says what the release of its actions does). With the set of a
named coefficient in use (the filter set of a converter in LOCKED or SPLICING, in a mode other than DIRECT) a
FILTER_SETS write or fill is refused with IN_USE, and one of a banked table outside EDITING with BUSY. A fill of
one enabled SET_SELECT record over two or more entries is refused with BAD_VALUE and the index of the fill's
second entry. The stores of cells are in canonical form, an invariant that StepKeepsRegionsAndStores states of
every step. What a darkened converter keeps of a splice or a measurement that it discards is the model's choice
(log entry 35). -/
def Obligations.WriteAndFillEntries : Prop :=
  (∀ (s : State) (m : Message) (rest : List Message) (code i1 i0 : Byte) (name : TableName) (rs : List Record),
    let first := i1.toNat * 256 + i0.toNat
    Safety.Ready s m rest 0x11#8 → m.payload = code :: i1 :: i0 :: rs.flatMap recordBytes →
    tableOf code.toNat = some name → rs ≠ [] → (∀ r ∈ rs, r.table = name ∧ r.valid = true) →
    (Safety.StoresCanonical s → Safety.Accepts s name first rs →
      ∃ t : State, exec .writeEntries s = .next (t.answer m ([0#8, code, i1, i0] ++ beBytes 2 rs.length)) ∧
        Safety.Written (s.takeCommand rest) t name first rs) ∧
    (first + rs.length ≤ tableSize name → name = .filterSets → (∃ k : Nat, k < rs.length ∧ Safety.InUse s (first + k)) →
      exec .writeEntries s = .next ((s.takeCommand rest).answer m [5#8])) ∧
    (first + rs.length ≤ tableSize name → banked name = true → s.tables.bankState ≠ .editing →
      exec .writeEntries s = .next ((s.takeCommand rest).answer m [6#8]))) ∧
  (∀ (s : State) (m : Message) (rest : List Message) (code i1 i0 r1 r0 : Byte) (name : TableName) (r : Record),
    let first := i1.toNat * 256 + i0.toNat
    let n := r1.toNat * 256 + r0.toNat + 1
    Safety.Ready s m rest 0x12#8 → m.payload = code :: i1 :: i0 :: r1 :: r0 :: recordBytes r →
    tableOf code.toNat = some name → r.table = name → r.valid = true →
    (Safety.StoresCanonical s → Safety.Accepts s name first (List.replicate n r) →
      ∃ t : State, exec .fillEntries s = .next (t.answer m ([0#8, code, i1, i0] ++ beBytes 2 n)) ∧
        Safety.Written (s.takeCommand rest) t name first (List.replicate n r)) ∧
    (first + n ≤ tableSize name → name = .filterSets → (∃ k : Nat, k < n ∧ Safety.InUse s (first + k)) →
      exec .fillEntries s = .next ((s.takeCommand rest).answer m [5#8])) ∧
    (first + n ≤ tableSize name → banked name = true → s.tables.bankState ≠ .editing →
      exec .fillEntries s = .next ((s.takeCommand rest).answer m [6#8])) ∧
    (first + n ≤ tableSize name → 2 ≤ n → (∃ x : SelectEntry, r = .select (some x)) →
      exec .fillEntries s = .next ((s.takeCommand rest).answer m ([4#8] ++ beBytes 2 (first + 1)))))

/-- A LINK_CONFIG mode change darkens the link, an ALARM_RULES write quiets the rule, SET_SELECT keeps its bounds in
order. A LINK_CONFIG record written with another mode sends that link's converter to DARK; one that keeps the
mode leaves every converter as it was. An ALARM_RULES record written puts its rule in QUIET with timer 0, ack
flag clear. If it was raised, its actions are released: its number leaves the reason sets of its muted set and
no other reason or gain state moves, the channels of its switched set go back by their revert policies with a
CUT for each changed source and every other source and line stands, both sets end empty, and a CLEARED notice is
made of the record as it stood before, with the value that its kind reads (lost and counted when 16 wait). If it
was not raised nothing else changes; the rules of other records stand in either case. Rules that are due are
taken before the write (the model's choice, log entry 12), and the notice's value is read before the release
(log entry 29). For a table written with records that are valid each by itself, no faulty entry is found exactly
when, of any two enabled entries of the table as it would stand, the later has the greater bound. -/
def Obligations.UnbankedTableRules : Prop :=
  (∀ s : State,
    (∀ (l : LinkId) (c : LinkConfig),
      (s.modeOf l ≠ c.mode → (s.writeEntry l.val (.linkConfig c)).cv[l].state = .dark) ∧
      (s.modeOf l = c.mode → (s.writeEntry l.val (.linkConfig c)).cv = s.cv) ∧
      (∀ k : LinkId, k ≠ l → (s.writeEntry l.val (.linkConfig c)).cv[k] = s.cv[k])) ∧
    (∀ (r : RuleId) (x : RuleRecord),
      (s.writeEntry r.val (.alarmRule x)).alarm.rules[r].state = .quiet ∧
      (s.writeEntry r.val (.alarmRule x)).alarm.rules[r].timer = 0 ∧
      (s.writeEntry r.val (.alarmRule x)).alarm.rules[r].ack = false ∧
      s.writeEntry r.val (.alarmRule x) = s.settleAlarms.writeEntry r.val (.alarmRule x) ∧
      (s.alarm.due = [] → raised s.alarm.rules[r].state = true →
        Safety.Cleared s (s.writeEntry r.val (.alarmRule x)) r) ∧
      (s.alarm.due = [] → raised s.alarm.rules[r].state = false →
        s.writeEntry r.val (.alarmRule x) =
          { s.setRule r { s.alarm.rules[r] with state := .quiet, timer := 0, ack := false } with
              tables := (s.writeEntry r.val (.alarmRule x)).tables }) ∧
      (s.writeEntry r.val (.alarmRule x)).tables = { s.tables with ruleRecords := s.tables.ruleRecords.set r.val x })) ∧
  (∀ (t : Tables) (es : Vector (Option SelectEntry) 4), (∀ i : Fin 4, Record.valid (.select es[i]) = true) →
    (faultyEntry t .setSelect 0 (es.toList.map fun e => recordBytes (.select e)) = none ↔
      ∀ (i j : Fin 4) (x y : SelectEntry), i < j → es[i] = some x → es[j] = some y → x.bound < y.bound))

/-- TAKE arms a valid standby bank at the form's instant or names its conflict, CANCEL TAKE disarms it. With the
banks EDITING and a standby bank that passes validation, TAKE answers OK with the pending instant and arms: HFC
+ 1 for NEXT_FRAME, HFC + N_slice − phase for NEXT_SLICE, T for AT when T lies 1 to 2^24 frames ahead; an AT
instant elsewhere is refused with BAD_VALUE. A standby bank that fails validation is refused with CONFLICT, the
check, the table, the entry and the second index. In ARMED or COPYING every form is refused with BUSY, an AT
instant out of range too, and a form above 2 with BAD_VALUE in any bank state. CANCEL_TAKE in ARMED answers the
pending instant and returns to EDITING, whatever the form of the take (log entry 30); in EDITING it is refused
with BAD_STATE, in COPYING with BUSY. Validation finds no conflict exactly when no channel is a member of two
present records of the bank, no two regions share a page, and every member channel has a primary source. A
conflict found is of the first of the three checks that fails: MEMBER_TWICE with the record and the channel,
REGION_OVERLAP with the two entries, MEMBER_UNMAPPED with the channel and the programme. -/
def Obligations.TakeCancelAndValidation : Prop :=
  (∀ (s : State) (m : Message) (rest : List Message) (a b c d : Byte),
    let at_ : Instant := a ++ b ++ c ++ d
    let armed (i : Instant) : State := (s.takeCommand rest).setTables { s.tables with
        bankState := .armed, pendingInstant := some i }
    (Safety.Ready s m rest 0x18#8 →
      (s.tables.bankState = .editing → validate (standbyBank s.tables) = none →
        (m.payload = [0#8, a, b, c, d] → exec .take s =
          .next ((armed (s.tb.hfc + 1#32)).answer m (0#8 :: beBytes 4 (s.tb.hfc + 1#32).toNat))) ∧
        (m.payload = [1#8, a, b, c, d] →
          let i := s.tb.hfc + BitVec.ofNat 32 (sliceLength s.tb.rate96 - s.tb.phase)
          exec .take s = .next ((armed i).answer m (0#8 :: beBytes 4 i.toNat))) ∧
        (m.payload = [2#8, a, b, c, d] → 1 ≤ (at_ - s.tb.hfc).toNat → (at_ - s.tb.hfc).toNat ≤ 16777216 →
          exec .take s = .next ((armed at_).answer m [0#8, a, b, c, d]))) ∧
      (s.tables.bankState = .editing → m.payload = [2#8, a, b, c, d] →
        ((at_ - s.tb.hfc).toNat = 0 ∨ 16777216 < (at_ - s.tb.hfc).toNat) →
        exec .take s = .next ((s.takeCommand rest).answer m [4#8])) ∧
      (∀ k : Conflict, s.tables.bankState = .editing → validate (standbyBank s.tables) = some k →
        (m.payload = [0#8, a, b, c, d] ∨ m.payload = [1#8, a, b, c, d] ∨
          (m.payload = [2#8, a, b, c, d] ∧ 1 ≤ (at_ - s.tb.hfc).toNat ∧ (at_ - s.tb.hfc).toNat ≤ 16777216)) →
        exec .take s = .next ((s.takeCommand rest).answer m
          ([7#8, BitVec.ofNat 8 k.check, BitVec.ofNat 8 k.table] ++ beBytes 2 k.entry ++ beBytes 2 k.second))) ∧
      (∀ form : Byte, m.payload = [form, a, b, c, d] →
        (2 < form.toNat → exec .take s = .next ((s.takeCommand rest).answer m [4#8])) ∧
        (form.toNat ≤ 2 → s.tables.bankState ≠ .editing →
          exec .take s = .next ((s.takeCommand rest).answer m [6#8])))) ∧
    (Safety.Ready s m rest 0x19#8 → m.payload = [] →
      (∀ i : Instant, s.tables.bankState = .armed → s.tables.pendingInstant = some i →
        exec .cancelTake s = .next (((s.takeCommand rest).setTables
          { s.tables with bankState := .editing, pendingInstant := none }).answer m (0#8 :: beBytes 4 i.toNat))) ∧
      (s.tables.bankState = .editing → exec .cancelTake s = .next ((s.takeCommand rest).answer m [9#8])) ∧
      (s.tables.bankState = .copying → exec .cancelTake s = .next ((s.takeCommand rest).answer m [6#8])))) ∧
  (((∀ b : Routing, validate b = none ↔
    (Safety.BankSound b ∧ ∀ (p : ProgId) (r : ProgRecord) (c : ChannelId), b.programmes[p] = some r → r.lists c = true →
      b.slotMap[c].primary ≠ none)) ∧
  (∀ (b : Routing) (k : Conflict), validate b = some k →
    let lists (p : ProgId) (c : ChannelId) : Prop := ∃ r : ProgRecord, b.programmes[p] = some r ∧ r.lists c = true
    let twice := ∃ (p q : ProgId) (c : ChannelId), q < p ∧ lists p c ∧ lists q c
    let overlap := ∃ c d : ChannelId, d < c ∧ sharePage b.regions[c] b.regions[d] = true
    (twice → k.check = 0 ∧ k.table = 3 ∧ ∃ (p q : ProgId) (c : ChannelId), q < p ∧ lists p c ∧ lists q c ∧
      k.entry = p.val ∧ k.second = c.val) ∧
    (¬ twice → overlap → k.check = 1 ∧ k.table = 4 ∧ ∃ c d : ChannelId, d < c ∧
      sharePage b.regions[c] b.regions[d] = true ∧ k.entry = c.val ∧ k.second = d.val) ∧
    (¬ twice → ¬ overlap → k.check = 2 ∧ k.table = 1 ∧ ∃ (p : ProgId) (c : ChannelId), lists p c ∧
      b.slotMap[c].primary = none ∧ k.entry = c.val ∧ k.second = p.val))))

/-- SET DELAY, SET TARGET and SET TRIM write their field in each bank that has the programme. In EDITING, for a
programme present in a bank, SET_DELAY writes D_t into the record of each bank that has it, and nothing else of
the tables, and answers OK with the programme, the value and the banks written. The members' line targets follow
the new D_t at once: D_t less the converter latency, held within 0 and the region's length less 1, with
DELAY_SHORT when D_t is below the latency and DELAY_CLAMPED when the region is too short. By the move mode a
member's line takes a SLEW or a CUT: in IDLE a target that differs starts it; a SLEW is retargeted by SLEW, and
over at once when it meets its target, and cancelled by CUT; a FALL takes the target at its jump; a RISE keeps
on under SLEW and falls again under CUT. A D_t that is the present value, a programme absent in the active bank
and a channel that is no member move no line. D_line_cur, V, the write pointers, gain and measurement stand. In
ARMED or COPYING it is refused with BUSY, and absent in both banks with BAD_STATE. In EDITING, for a programme
present in a bank, SET_TARGET with −400 to −100 and SET_TRIM with −240 to +120 write the field in the record of
each bank that has it, answer OK with the programme, the value and the banks written, and change nothing else. A
value outside the range is refused with BAD_VALUE; in ARMED or COPYING a value in range is refused with BUSY.
The slew count 0 of a slew that is over at once is the model's choice (log entry 32). -/
def Obligations.LiveAdjusts : Prop :=
  (∀ (s : State) (m : Message) (rest : List Message) (p : ProgId) (a d1 d0 : Byte), Safety.Ready s m rest 0x20#8 →
    a = BitVec.ofNat 8 p.val → m.payload = [a, d1, d0] →
    let d := d1.toNat * 256 + d0.toNat
    let banks := (if s.active.programmes[p] = none then 0 else 1) +
      (if (standbyBank s.tables).programmes[p] = none then 0 else 2)
    (s.tables.bankState ≠ .editing → exec .setDelay s = .next ((s.takeCommand rest).answer m [6#8])) ∧
    (s.tables.bankState = .editing → banks = 0 → exec .setDelay s = .next ((s.takeCommand rest).answer m [9#8])) ∧
    (s.tables.bankState = .editing → banks ≠ 0 →
      ∃ t : State, exec .setDelay s = .next (t.answer m [0#8, a, d1, d0, BitVec.ofNat 8 banks]) ∧
        Safety.Adjusted s.tables t.tables p (fun r => { r with dt := d }) ∧
        (∀ (r : ProgRecord) (c : ChannelId), s.record p = some r → r.dt ≠ d → Safety.BankSound s.active →
          r.lists c = true →
          t.lines[c].tgt = min (d - s.latencyOf c) (regionLength (s.regionOf c) - 1) ∧
          (s.regionOf c ≠ none → (t.lines[c].short = true ↔ d < s.latencyOf c) ∧
            (t.lines[c].clamped = true ↔ regionLength (s.regionOf c) - 1 < d - s.latencyOf c)) ∧
          (s.lines[c].move = .idle → t.lines[c].move =
            if t.lines[c].tgt = s.lines[c].cur then .idle else if r.moveMode = .slew then .slew else .cutFall)) ∧
        (∀ (r : ProgRecord) (c : ChannelId), s.record p = some r → r.dt ≠ d → r.lists c = true →
          (r.moveMode = .slew → Safety.SlewAnswer t c s.lines[c] t.lines[c]) ∧
          (r.moveMode = .cut → Safety.CutAnswer t c s.lines[c] t.lines[c] false)) ∧
        (∀ (r : ProgRecord) (c : ChannelId), s.record p = some r → r.dt = d ∨ r.lists c = false →
          t.lines[c] = s.lines[c]) ∧
        (s.record p = none → t.lines = s.lines) ∧
        (∀ c : ChannelId, t.lines[c].cur = s.lines[c].cur ∧ t.lines[c].v = s.lines[c].v ∧
          t.lines[c].wptr = s.lines[c].wptr) ∧
        t = { s.takeCommand rest with tables := t.tables, lines := t.lines })) ∧
  (∀ (s : State) (m : Message) (rest : List Message) (p : ProgId) (a v1 v0 : Byte), a = BitVec.ofNat 8 p.val →
    m.payload = [a, v1, v0] →
    let v : Int := (v1 ++ v0 : BitVec 16).toInt
    let banks := (if s.active.programmes[p] = none then 0 else 1) +
      (if (standbyBank s.tables).programmes[p] = none then 0 else 2)
    (Safety.Ready s m rest 0x21#8 →
      (v < -400 ∨ -100 < v → exec .setTarget s = .next ((s.takeCommand rest).answer m [4#8])) ∧
      (-400 ≤ v → v ≤ -100 → s.tables.bankState ≠ .editing →
        exec .setTarget s = .next ((s.takeCommand rest).answer m [6#8])) ∧
      (-400 ≤ v → v ≤ -100 → s.tables.bankState = .editing → banks ≠ 0 →
        ∃ t : State, exec .setTarget s = .next (t.answer m [0#8, a, v1, v0, BitVec.ofNat 8 banks]) ∧
          Safety.Adjusted s.tables t.tables p (fun r => { r with target := v }) ∧
          t = { s.takeCommand rest with tables := t.tables })) ∧
    (Safety.Ready s m rest 0x22#8 →
      (v < -240 ∨ 120 < v → exec .setTrim s = .next ((s.takeCommand rest).answer m [4#8])) ∧
      (-240 ≤ v → v ≤ 120 → s.tables.bankState ≠ .editing →
        exec .setTrim s = .next ((s.takeCommand rest).answer m [6#8])) ∧
      (-240 ≤ v → v ≤ 120 → s.tables.bankState = .editing → banks ≠ 0 →
        ∃ t : State, exec .setTrim s = .next (t.answer m [0#8, a, v1, v0, BitVec.ofNat 8 banks]) ∧
          Safety.Adjusted s.tables t.tables p (fun r => { r with trim := v }) ∧
          t = { s.takeCommand rest with tables := t.tables })))

/-- MUTE and UNMUTE add and remove COMMAND and report whether the programme is muted. For a programme present in the
active bank, MUTE adds COMMAND to its reason set and answers OK with the programme and 1; UNMUTE removes COMMAND
and answers 1 exactly when rule numbers are left in the set. Nothing else changes, whatever the bank state. A
MUTE of a programme that already holds COMMAND, and an UNMUTE of one that does not, is accepted and changes
nothing. For an absent programme both are refused with BAD_STATE. -/
def Obligations.MuteAndUnmute : Prop :=
  ∀ (s : State) (m : Message) (rest : List Message) (p : ProgId) (a : Byte), a = BitVec.ofNat 8 p.val → m.payload = [a] →
    (Safety.Ready s m rest 0x28#8 →
      (s.record p ≠ none → exec .mute s =
        .next (((s.takeCommand rest).setGain p { s.gain[p] with command := true }).answer m [0#8, a, 1#8])) ∧
      (s.record p ≠ none → s.gain[p].command = true →
        exec .mute s = .next ((s.takeCommand rest).answer m [0#8, a, 1#8])) ∧
      (s.record p = none → exec .mute s = .next ((s.takeCommand rest).answer m [9#8]))) ∧
    (Safety.Ready s m rest 0x29#8 →
      (s.record p ≠ none → exec .unmute s =
        .next (((s.takeCommand rest).setGain p { s.gain[p] with command := false }).answer m
          [0#8, a, if s.gain[p].reasons = 0#32 then 0#8 else 1#8])) ∧
      (s.record p ≠ none → s.gain[p].command = false →
        exec .unmute s = .next ((s.takeCommand rest).answer m
          [0#8, a, if s.gain[p].reasons = 0#32 then 0#8 else 1#8])) ∧
      (s.record p = none → exec .unmute s = .next ((s.takeCommand rest).answer m [9#8])))

/-- ACK ALARM sets ack flags and clears held rules, ENABLE RULE and DISABLE RULE write the enabled field. ACK_ALARM
of one rule: in ACTIVE or EASING the ack flag is set and the reply counts one flag set, also where the flag
stands already (the model's choice, log entry 23). In HELD the rule enters QUIET with its ack flag clear and a
CLEARED notice with the value of its kind, read before the release (log entry 29) and lost when 16 wait; it
releases its actions: its number leaves the reason sets of its muted set, the channels of its switched set go
back by their revert policies with a CUT for each changed source, and both sets end empty; the reply counts one
taken from HELD, and nothing else changes. In QUIET or ONSET nothing changes and both counts are 0. ALL (255)
does the same for every rule in ascending number, a DELAY value being read after the lower rules' releases, and
the reply carries the two counts. A number 32 to 254 is refused with BAD_INDEX. ENABLE_RULE of a disabled rule
sets its enabled field and changes nothing else; of an enabled one it changes nothing. DISABLE_RULE of an
enabled rule clears the field and puts the rule in QUIET with timer 0 and ack flag clear, after the rules that
are due (log entry 12), with the release and the CLEARED notice of a raised rule; of a disabled one it changes
nothing. Each answers OK with the rule and the field as it stood before. -/
def Obligations.AlarmCommands : Prop :=
  (∀ (s : State) (m : Message) (rest : List Message) (r : RuleId) (a : Byte), Safety.Ready s m rest 0x30#8 →
    (a = BitVec.ofNat 8 r.val → m.payload = [a] →
      (s.alarm.rules[r].state = .active ∨ s.alarm.rules[r].state = .easing →
        exec .ackAlarm s = .next (((s.takeCommand rest).setRule r { s.alarm.rules[r] with ack := true }).answer m
          [0#8, 0#8, 1#8])) ∧
      (s.alarm.rules[r].state = .quiet ∨ s.alarm.rules[r].state = .onset →
        exec .ackAlarm s = .next ((s.takeCommand rest).answer m [0#8, 0#8, 0#8])) ∧
      (s.alarm.rules[r].state = .held →
        ∃ t : State, exec .ackAlarm s = .next (t.answer m [0#8, 1#8, 0#8]) ∧ t.tables = s.tables ∧
          Safety.Cleared (s.takeCommand rest) t r)) ∧
    (a = 255#8 → m.payload = [a] →
      let held := allRules.filter fun r => s.alarm.rules[r].state == .held
      let running := allRules.filter fun r => s.alarm.rules[r].state == .active || s.alarm.rules[r].state == .easing
      ∃ t : State, exec .ackAlarm s =
          .next (t.answer m [0#8, BitVec.ofNat 8 held.length, BitVec.ofNat 8 running.length]) ∧
        (∀ r ∈ running, t.alarm.rules[r] = { s.alarm.rules[r] with ack := true }) ∧
        (∀ r ∈ held, t.alarm.rules[r] = { state := .quiet, timer := 0, ack := false, muted := 0#8, switched := 0#32 }) ∧
        (∀ r : RuleId, r ∉ running → r ∉ held → t.alarm.rules[r] = s.alarm.rules[r]) ∧
        (∃ value : RuleId → Int,
          (∀ r ∈ held, s.tables.ruleRecords[r].kind ≠ .delay → value r = Safety.valueRead s s.tables.ruleRecords[r]) ∧
          t.port = held.foldl (fun q r => Safety.noted s q r .cleared (value r)) (s.takeCommand rest).port) ∧
        Safety.Released (s.takeCommand rest) t (fun r => r ∈ held) ∧ t.alarm.due = s.alarm.due ∧
        t = { s.takeCommand rest with
            gain := t.gain, alarm := t.alarm, sources := t.sources, lines := t.lines, port := t.port }) ∧
    (32 ≤ a.toNat → a.toNat ≤ 254 → m.payload = [a] →
      exec .ackAlarm s = .next ((s.takeCommand rest).answer m [3#8]))) ∧
  (∀ (s : State) (m : Message) (rest : List Message) (r : RuleId) (a : Byte), a = BitVec.ofNat 8 r.val → m.payload = [a] →
    (Safety.Ready s m rest 0x31#8 →
      (s.tables.ruleRecords[r].enabled = false →
        exec .enableRule s = .next (((s.takeCommand rest).setTables { s.tables with
            ruleRecords := s.tables.ruleRecords.set r.val { s.tables.ruleRecords[r] with enabled := true } }).answer m [0#8, a, 0#8])) ∧
      (s.tables.ruleRecords[r].enabled = true →
        exec .enableRule s = .next ((s.takeCommand rest).answer m [0#8, a, 1#8]))) ∧
    (Safety.Ready s m rest 0x32#8 →
      (s.tables.ruleRecords[r].enabled = false →
        exec .disableRule s = .next ((s.takeCommand rest).answer m [0#8, a, 0#8])) ∧
      (s.tables.ruleRecords[r].enabled = true →
        ∃ t : State, exec .disableRule s = .next (t.answer m [0#8, a, 1#8]) ∧
          t.tables = { s.tables with
              ruleRecords := s.tables.ruleRecords.set r.val { s.tables.ruleRecords[r] with enabled := false } } ∧
          t.alarm.rules[r].state = .quiet ∧ t.alarm.rules[r].timer = 0 ∧ t.alarm.rules[r].ack = false ∧
          (s.alarm.due = [] → raised s.alarm.rules[r].state = true → Safety.Cleared (s.takeCommand rest) t r) ∧
          (s.alarm.due = [] → raised s.alarm.rules[r].state = false →
            t = { (s.takeCommand rest).setRule r { s.alarm.rules[r] with state := .quiet, timer := 0, ack := false } with
                tables := t.tables }))))

/-- RESTORE PRIMARY returns the named channels and takes them out of every switched set. RESTORE_PRIMARY with a non-
empty channel set puts every named channel in PRIMARY and takes it out of every rule's switched set; channels
not named keep their source state and their place in the sets. Rule states and muted sets stand. The line of a
channel whose selected source changes answers with a CUT, every other line stands, and the reply carries the set
of exactly those channels. An empty set is refused with BAD_VALUE. -/
def Obligations.RestorePrimaryRule : Prop :=
  ∀ (s : State) (m : Message) (rest : List Message) (a b c d : Byte), Safety.Ready s m rest 0x38#8 →
    m.payload = [a, b, c, d] →
    let set : BitVec 32 := a ++ b ++ c ++ d
    (set = 0#32 → exec .restorePrimary s = .next ((s.takeCommand rest).answer m [4#8])) ∧
    (set ≠ 0#32 → ∃ (t : State) (w3 w2 w1 w0 : Byte),
      exec .restorePrimary s = .next (t.answer m [0#8, w3, w2, w1, w0]) ∧
      (∀ ch : ChannelId, hasMember (w3 ++ w2 ++ w1 ++ w0 : BitVec 32) ch = true ↔ t.selectedOf ch ≠ s.selectedOf ch) ∧
      (∀ ch : ChannelId, Safety.LineFollows s t ch) ∧
      (∀ ch : ChannelId, t.sources[ch] = if hasMember set ch then .primary else s.sources[ch]) ∧
      (∀ (r : RuleId) (ch : ChannelId), hasMember t.alarm.rules[r].switched ch =
        (hasMember s.alarm.rules[r].switched ch && !hasMember set ch)) ∧
      (∀ r : RuleId, t.alarm.rules[r].state = s.alarm.rules[r].state ∧
        t.alarm.rules[r].muted = s.alarm.rules[r].muted) ∧
      t = { s.takeCommand rest with sources := t.sources, lines := t.lines, alarm := t.alarm })

/-- RESET INTEGRATOR clears S and C, READ CONTEXT answers one record for each programme n down to 0. For a present
programme RESET_INTEGRATOR sets S and C to 0, keeps the history, the latest window and the whole gain state, and
answers OK with the programme and the values of S and C before. For an absent programme it is refused with
BAD_STATE and changes nothing. READ_CONTEXT of n, unless all eight programmes are present and n is 7, answers OK
with n + 1 and the records for n, n − 1, down to 0, one byte of zeros for an absent programme and for a present
one 33 bytes with its member count, S, C, the four powers newest first (zeros for the missing ones) and the gain
pair (G_tgt + 240) × 361 + (G_app + 240), and changes no state. With all eight present and n = 7 it is refused
with BAD_STATE. -/
def Obligations.ResetIntegratorAndReadContext : Prop :=
  (∀ (s : State) (m : Message) (rest : List Message) (p : ProgId) (a : Byte), Safety.Ready s m rest 0x40#8 →
    a = BitVec.ofNat 8 p.val → m.payload = [a] →
    (s.record p ≠ none → exec .resetIntegrator s =
      .next (((s.takeCommand rest).setLoud p { s.loud[p] with sum := 0, count := 0 }).answer m
        ([0#8, a] ++ beBytes 8 s.loud[p].sum ++ beBytes 2 s.loud[p].count))) ∧
    (s.record p = none → exec .resetIntegrator s = .next ((s.takeCommand rest).answer m [9#8]))) ∧
  (∀ (s : State) (m : Message) (rest : List Message) (p : ProgId) (a : Byte), Safety.Ready s m rest 0x41#8 →
    a = BitVec.ofNat 8 p.val → m.payload = [a] →
    let records := ((List.range (p.val + 1)).reverse.map fun k => s.contextOf (Fin.ofNat 8 k))
    (∀ q : ProgId, (s.record q = none → s.contextOf q = [0#8]) ∧
      (∀ r : ProgRecord, s.record q = some r → (s.contextOf q).length = 33 ∧
        s.contextOf q = contextBytes
          { members := r.members.length, sum := s.loud[q].sum, count := s.loud[q].count,
            p1 := s.loud[q].history.getD 0 0, p2 := s.loud[q].history.getD 1 0, p3 := s.loud[q].history.getD 2 0,
            p4 := s.loud[q].history.getD 3 0,
            pair := ((s.gain[q].tgt + 240) * 361 + (s.gain[q].app + 240)).toNat })) ∧
    ((p.val = 7 ∧ ∀ q : ProgId, s.record q ≠ none) →
      exec .readContext s = .next ((s.takeCommand rest).answer m [9#8])) ∧
    (¬ (p.val = 7 ∧ ∀ q : ProgId, s.record q ≠ none) →
      exec .readContext s = .next ((s.takeCommand rest).answer m
        ([0#8, BitVec.ofNat 8 (p.val + 1)] ++ records.flatten))))

/-- LOAD CONTEXT gives its records to the programmes in descending number, and applies, skips or passes over each.
LOAD_CONTEXT carries k records, each one byte with a clear present flag or the 33 bytes of a present record.
With k from 1 to 8 and every present record's member count from 1 to 8, record j, counted from 0, goes to
programme k − 1 − j. A record with a clear flag is passed over: its programme stands, and it is not counted. A
present record is applied when its programme is present with the same member count, the integrator satisfies S ≤
C × 4,260,607,557,632 (so S is 0 when C is) and no power is above 4,260,607,557,632: S, C and the four powers
are loaded, the latest window is none, the queue is empty and G_tgt is floor(pair / 361) − 240 clamped into the
limits; G_app, ramp, reasons and fader stand. Any other present record is skipped and changes nothing. The reply
gives how many were applied and how many skipped, and programmes from k on and everything else stand. A payload
of no record, of more than 8, or one that ends inside a record is refused with BAD_LENGTH, and a present record
whose member count is 0 or above 8 with BAD_VALUE, with nothing applied. -/
def Obligations.LoadContextAppliesARecord : Prop :=
  ∀ (s : State) (m : Message) (rest : List Message) (rs : List (Sum Byte Context)),
    let fits (c : Context) : Prop := c.members < 2 ^ 4 ∧ c.sum < 2 ^ 58 ∧ c.count < 2 ^ 16 ∧ c.p1 < 2 ^ 42 ∧ c.p2 < 2 ^ 42 ∧
      c.p3 < 2 ^ 42 ∧ c.p4 < 2 ^ 42 ∧ c.pair < 2 ^ 17
    let bytes : List Byte := rs.flatMap fun x => match x with
      | .inl b => [b]
      | .inr c => contextBytes c
    let sized : Prop := ∀ c : Context, Sum.inr c ∈ rs → 1 ≤ c.members ∧ c.members ≤ 8
    let given (p : ProgId) : Option Context := if p.val < rs.length then
        match rs[rs.length - 1 - p.val]? with
        | some (.inr c) => some c
        | _ => none
      else none
    let applies (p : ProgId) (c : Context) : Bool := match s.record p with
      | some r => decide (r.members.length = c.members ∧ c.sum ≤ c.count * 4260607557632 ∧ c.p1 ≤ 4260607557632 ∧
          c.p2 ≤ 4260607557632 ∧ c.p3 ≤ 4260607557632 ∧ c.p4 ≤ 4260607557632)
      | none => false
    Safety.Ready s m rest 0x42#8 → (∀ b : Byte, Sum.inl b ∈ rs → b.toNat < 128) → (∀ c : Context, Sum.inr c ∈ rs → fits c) →
    (m.payload = bytes → rs = [] ∨ 8 < rs.length → exec .loadContext s = .next ((s.takeCommand rest).answer m [1#8])) ∧
    (∀ (c : Context) (n : Nat), fits c → 1 ≤ n → n ≤ 32 → m.payload = bytes ++ (contextBytes c).take n →
      exec .loadContext s = .next ((s.takeCommand rest).answer m [1#8])) ∧
    (m.payload = bytes → rs ≠ [] → rs.length ≤ 8 → ¬ sized →
      exec .loadContext s = .next ((s.takeCommand rest).answer m [4#8])) ∧
    (m.payload = bytes → rs ≠ [] → rs.length ≤ 8 → sized →
      ∃ t : State, exec .loadContext s = .next (t.answer m
          [0#8, BitVec.ofNat 8 (allProgs.filter fun p => (given p).any fun c => applies p c).length,
            BitVec.ofNat 8 (allProgs.filter fun p => (given p).any fun c => !applies p c).length]) ∧
        (∀ p : ProgId, given p = none → t.loud[p] = s.loud[p] ∧ t.gain[p] = s.gain[p]) ∧
        (∀ (p : ProgId) (c : Context), given p = some c →
          (applies p c = false → t.loud[p] = s.loud[p] ∧ t.gain[p] = s.gain[p]) ∧
          (∀ r : ProgRecord, applies p c = true → s.record p = some r →
            t.loud[p] = { history := [c.p1, c.p2, c.p3, c.p4], window := none, sum := c.sum, count := c.count } ∧
            t.gain[p] = { s.gain[p] with
                queue := [], tgt := clampInt (-(r.cutMax : Int)) r.boostMax ((c.pair / 361 : Nat) - 240) })) ∧
        t = { s.takeCommand rest with loud := t.loud, gain := t.gain })

/-- RESET DOMAINS resets each named domain and no other, and records the mask and the HFC. RESET_DOMAINS with any
mask of the five domains answers OK with the mask and the HFC, which the reset record takes; each named domain
has its effects, and a domain not named has none. LINKS sends every receiver to HUNTING with its counts and hold
copy cleared, and every converter to DARK with its loss ramp started, an empty ring, Q0, Q_int, Q_applied,
counts, window, last slip and filter set cleared and L_c kept; every channel goes to PRIMARY, every switched set
is emptied, and a message in progress on a framed management link is lost and counted. MEASURE clears every
filter state, record, history, window and integrator. GAIN empties the queue and zeroes G_tgt, G_app and ramp
count of every present programme, forgets its decision and removes COMMAND, with rule numbers, fader and the
gain of the frame in progress kept. DELAY sets V to 0 and every line to its target by R61, with its flags,
without a move, write pointers kept; the access of the frame in progress reads there. ALARMS returns every rule
to QUIET with timer 0, ack flag clear and empty sets, its number out of the reason sets it held, its channels
back by their revert policies, the notice queue empty and the lost count kept. A line whose selected source
changes answers with a CUT; with DELAY in the same mask that CUT starts from the set line or is cancelled by it,
in the order that the spec leaves open (log entry 10). Tables, timebase, delay store and everything else stand.
Mask 0 or above 31 is refused with BAD_VALUE. Rules that are due and notices that wait are cancelled by ALARMS
(the model's choice, log entry 12). The search position 0, the activity watch and the access of the frame are
the model's (log entries 18, 6 and 2); so are the quiet frame count 0 and the running CRC 0 of the assembler in
IDLE (log entry 34) and what a converter keeps in DARK of what it discards (log entry 35). -/
def Obligations.ResetDomainsParts : Prop :=
  ∀ (s : State) (m : Message) (rest : List Message) (a : Byte), Safety.Ready s m rest 0x48#8 → m.payload = [a] →
    let links := a.toNat.testBit 0
    let measure := a.toNat.testBit 1
    let gain := a.toNat.testBit 2
    let delay := a.toNat.testBit 3
    let alarms := a.toNat.testBit 4
    (a = 0#8 ∨ 31 < a.toNat → exec .resetDomains s = .next ((s.takeCommand rest).answer m [4#8])) ∧
    (1 ≤ a.toNat → a.toNat ≤ 31 →
      ∃ t : State, exec .resetDomains s = .next (t.answer m (0#8 :: a :: beBytes 4 s.tb.hfc.toNat)) ∧
        (∀ l : LinkId,
          t.rx[l] = (if links then { s.rx[l] with
              state := .hunting, candidates := 0, lookAt := 0, badRun := 0, parityErrors := 0, alignErrors := 0,
              hold := zeroSamples, watch := 0 } else s.rx[l]) ∧
          t.cv[l] = (if links then
            let dark : Conv := { s.cv[l] with
                state := .dark, ring := Vector.replicate 64 zeroSamples, w := 0#32, m := 0, n := 0, q0 := 0, qInt := 0,
                qApplied := 0, slips := 0, saturations := 0, window := 0, lastSlip := none, filter := none,
                leaveDue := false }
            if s.cv[l].state = .dark then dark else { dark with rampStart := s.cv[l].last, rampCount := 0, jumpDue := false }
            else s.cv[l])) ∧
        (∀ c : ChannelId, t.meas[c] = if measure then { s.meas[c] with
            stage1 := zeroBiquad, stage2 := zeroBiquad, building := zeroBuilding,
            latest := { acc := 0, peak := 0, fsCount := 0, outClips := 0, ms := 0, covers := none } } else s.meas[c]) ∧
        (∀ p : ProgId,
          t.loud[p] = (if measure then { history := [], window := none, sum := 0, count := 0 } else s.loud[p]) ∧
          t.gain[p] = { (if gain = true ∧ s.record p ≠ none then { s.gain[p] with
              queue := [], tgt := 0, app := 0, ramp := 0, stepDue := false, decision := .noLevel, gNew := none,
              command := false } else s.gain[p]) with reasons := t.gain[p].reasons } ∧
          (∀ r : RuleId, hasMember t.gain[p].reasons r = true ↔ hasMember s.gain[p].reasons r = true ∧
            ¬ (alarms = true ∧ hasMember s.alarm.rules[r].muted p = true ∧ s.record p ≠ none)) ∧
          (alarms = true → s.record p ≠ none → Safety.ReasonsSound s → t.gain[p].reasons = 0#32)) ∧
        (∀ c : ChannelId, let switched := ∃ r : RuleId, hasMember s.alarm.rules[r].switched c = true
          (links = true → t.sources[c] = .primary) ∧
          (links = false → alarms = true → switched → t.sources[c] = Safety.revertedSource s c) ∧
          (links = false → ¬ (alarms = true ∧ switched) → t.sources[c] = s.sources[c])) ∧
        (∀ r : RuleId, t.alarm.rules[r] = if alarms then
            { state := .quiet, timer := 0, ack := false, muted := 0#8, switched := 0#32 }
          else if links then { s.alarm.rules[r] with switched := 0#32 } else s.alarm.rules[r]) ∧
        t.alarm.due = (if alarms then [] else s.alarm.due) ∧
        (∀ c : ChannelId,
          (delay = false → Safety.LineFollows s t c) ∧
          (delay = true → t.selectedOf c = s.selectedOf c → Safety.SetAtOnce t c s.lines[c] t.lines[c] s.lines[c].wptr) ∧
          (delay = true → t.selectedOf c ≠ s.selectedOf c →
            Safety.SetAtOnce t c s.lines[c] t.lines[c] s.lines[c].wptr ∨
            ∃ l : Line, Safety.SetAtOnce s c s.lines[c] l s.lines[c].wptr ∧ Safety.CutAnswer t c l t.lines[c] true)) ∧
        (let link := links = true ∧ s.rx[s.port.mlk].state = .framed ∧ s.port.assembler.collecting = true
         (¬ link → t.port.assembler = s.port.assembler ∧ t.port.errors = s.port.errors) ∧
         (link → s.port.assembler.quiet < 64 → t.port.assembler = idleAssembler ∧
           t.port.errors = { s.port.errors with linkLoss := min 65535 (s.port.errors.linkLoss + 1) })) ∧
        t.port = { s.port with
            commands := rest, notices := if alarms then [] else s.port.notices, domain := some (a, s.tb.hfc),
            assembler := t.port.assembler, errors := t.port.errors } ∧
        t = { s.takeCommand rest with
            rx := t.rx, cv := t.cv, meas := t.meas, loud := t.loud, gain := t.gain, sources := t.sources, alarm := t.alarm,
            lines := t.lines, port := t.port, free := t.free })

/-- The raw level of a power follows the log conversion. The raw level of 0 is −1,200. For a power P with its
leading one at bit e, m is the five bits below it (P shifted right by e − 5 modulo 32, or left by 5 − e when e
is below 5), X = 256 × (e − 34) + T[m], and the raw level is round(X × 30,103 / 256,000) with ties upward. P = 1
gives −1,024, 31 × 2^37 gives +239, and every nonzero power below 2^42 gives a level within −1,024 to +240. A
window formed at a boundary has the raw level of its power, and the integrated level is that of floor(S / C)
plus the offset. T is the table of section 5.3, entry by entry. -/
def Obligations.RawLevelConversion : Prop :=
  rawLevel 0 = -1200 ∧
  (∀ (p e : Nat), 2 ^ e ≤ p → p < 2 ^ (e + 1) → e < 64 →
    ∃ t : Nat, logTable[if 5 ≤ e then p / 2 ^ (e - 5) % 32 else p * 2 ^ (5 - e) % 32]? = some t ∧
      rawLevel p = (2 * ((256 * ((e : Int) - 34) + t) * 30103) + 256000) / 512000) ∧
  logTable = [0, 11, 22, 33, 44, 54, 63, 73, 82, 92, 100, 109, 118, 126, 134, 142, 150, 157, 165, 172, 179, 186, 193, 200,
    207, 213, 220, 226, 232, 238, 244, 250] ∧
  rawLevel 1 = -1024 ∧ rawLevel (31 * 2 ^ 37) = 239 ∧
  (∀ p : Nat, 0 < p → p < 2 ^ 42 → -1024 ≤ rawLevel p ∧ rawLevel p ≤ 240) ∧
  (∀ (r : ProgRecord) (p : Nat) (l : Loud) (w : Window), (boundaryLoud r p l).window = some w →
    w.raw = rawLevel w.power) ∧
  (∀ (sum count : Nat) (offset : Int), integratedLevel sum (count + 1) offset =
    some (rawLevel (sum / (count + 1)) + offset))

/-- An instant is first reached after as many frames as it lies ahead, and a message with its check byte leaves the
CRC at 0. For an instant T that lies d frames ahead of the current HFC, with 1 ≤ d ≤ 2^31 − 1: after k further
frames, for every k up to d − 1, T has not been reached, and after d frames it has, across the wrap of the HFC.
The two examples of the rule hold: T = 4,294,967,000 has been reached at HFC 100 and not at 4,294,966,990. For
every string of bytes, the register after the string and its own check value is 0; after the string 0x01 it
holds 0x07 and after 0x01, 0x02 it holds 0x1B. -/
def Obligations.ReachedTestAndCheckByte : Prop :=
  ((∀ (hfc t : Instant), 1 ≤ (t - hfc).toNat → (t - hfc).toNat ≤ 2147483647 →
    (∀ k : Nat, k < (t - hfc).toNat → instantReached (hfc + BitVec.ofNat 32 k) t = false) ∧
    instantReached (hfc + BitVec.ofNat 32 (t - hfc).toNat) t = true) ∧
  instantReached 100#32 4294967000#32 = true ∧ instantReached 4294966990#32 4294967000#32 = false) ∧
  ((∀ bs : List Byte, crc (bs ++ [crc bs]) = 0#8) ∧ crc [0x01#8] = 0x07#8 ∧ crc [0x01#8, 0x02#8] = 0x1B#8)

/-- The multiplier M of A comes from the coarse and fine tables. For every A from −400 to +120, written 10a + b with
a = floor(A / 10) and b = A − 10a, M = round(coarse[a] × fine[b] / 2^20) with coarse[a] = round(2^20 ×
10^(a/20)) and fine[b] = round(2^22 × 10^(b/200)); both roundings are put as bounds on whole powers. Unity is
4,194,304, at A = 0. M is 16,697,824 at +120 and 41,944 at −400, and A = −37 gives a = −4 and b = 3. -/
def Obligations.MultiplierOfAppliedGain : Prop :=
  (∀ x : Int, -400 ≤ x → x ≤ 120 → ∃ c f : Nat,
    (2 * c - 1) ^ 20 * 10 ^ 40 ≤ 2 ^ 420 * 10 ^ (x / 10 + 40).toNat ∧
    2 ^ 420 * 10 ^ (x / 10 + 40).toNat < (2 * c + 1) ^ 20 * 10 ^ 40 ∧
    (2 * f - 1) ^ 200 ≤ 2 ^ 4600 * 10 ^ (x - 10 * (x / 10)).toNat ∧
    2 ^ 4600 * 10 ^ (x - 10 * (x / 10)).toNat < (2 * f + 1) ^ 200 ∧
    multiplier x = (2 * (c * f) + 1048576) / 2097152) ∧
  multiplier 0 = 4194304 ∧ multiplier 120 = 16697824 ∧ multiplier (-400) = 41944 ∧
  (-37 : Int) / 10 = -4 ∧ (-37 : Int) - 10 * ((-37) / 10) = 3

/-- A word of the delay store reads what was last written, a line reads each distance back once primed, averages a
step and fades. Writing a word of the delay store makes that word read the value written and leaves every other
word as it was, for every store in canonical form. A line that has been fed n samples since its depth was set to
0 reads at distance d, below its region's length, the sample of the present frame for d = 0, the sample fed d
frames ago for d from 1 to n, and zero for a greater d: it primes. The line output of a frame is round(line
sample × g / 64), the line sample itself at g = 64. The line sample is the channel sample without a region; with
one it is the read at D_line_cur as the frame's access takes it, or in a slew step frame floor((a + b) / 2) of
the reads a at the old and b at the new distance, each primed on its own. The distances that a frame's access
reads are marks of the model (log entry 2). -/
def Obligations.DelayStoreReadsWhatIsWritten : Prop :=
  (∀ (m : Cells Sample) (a b : Nat) (x : Sample), cellsWf 0#24 m = true →
    readCell 0#24 (writeCell 0#24 m a x) b = if b = a then x else readCell 0#24 m b) ∧
  (∀ (m : Cells Sample) (r : Region) (l : Line) (xs : List Sample) (y : Sample) (d : Nat), cellsWf 0#24 m = true →
    l.wptr < r.count * 1024 → l.v = 0 → d < r.count * 1024 →
    let fed := xs.foldl (fun (a : Cells Sample × Line) x => (writeLine a.1 (some r) a.2 x, accessLine (some r) a.2)) (m, l)
    readLine fed.1 r fed.2.wptr (countedDepth (some r) fed.2.v) y d =
      if d = 0 then y else if d ≤ xs.length then xs.getD (xs.length - d) 0#24 else 0#24) ∧
  (∀ (m : Cells Sample) (region : Option Region) (l : Line) (x : Sample),
    let read (r : Region) (d : Nat) : Sample :=
      let v := if l.v < r.count * 1024 then l.v + 1 else l.v
      if d = 0 then x else if v ≤ d then 0#24
      else readCell 0#24 m (r.base * 1024 + (((l.wptr : Int) - d) % ((r.count * 1024 : Nat) : Int)).toNat)
    let sample : Sample := match region, l.readAlso with
      | none, _ => x
      | some r, none => read r l.readAt
      | some r, some d => BitVec.ofInt 24 (((read r l.readAt).toInt + (read r d).toInt) / 2)
    lineOutput m region l x = BitVec.ofInt 24 ((2 * (sample.toInt * l.g) + 64) / 128) ∧
    (l.g = 64 → lineOutput m region l x = sample))

/-- A house frame weighs and records each channel's sample, counts its saturated output, writes it into its line and
begins the line's next frame. When nothing of the frame in progress is still due, HOUSE_FRAME puts each
channel's sample through the two weighting stages: each output is round(sum / 2^22) of b0 x + b1 x1 + b2 x2 − a1
y1 − a2 y2, saturated to 26 bits, and the states move on. The building record adds floor(y² / 2^16) to acc,
takes the larger magnitude as its peak, counts a full-scale sample, and counts the output sample when it was
saturated in the gain stage. With a region V goes up by one to the region's length, the write pointer advances
and wraps, and, where no two regions share a page, the word at the old pointer is the channel sample; without
one both stand, and no word of the store but those at the write pointers changes. The line as the next frame
begins: its access reads at D_line_cur; a SLEW counts up by one, or is over and IDLE when its last step has
brought the delay to the target; a FALL takes the fader down by one, and at g = 0 leaves the jump due; a RISE
takes it up by one to 64; nothing else of the line moves. The distance that the access reads and the mark of a
due jump are the model's (log entry 2). -/
def Obligations.MeasurementTapAndLineAccess : Prop :=
  ∀ (s : State) (b : Nat) (c : ChannelId), s.tb.boundary = some b → settleTimebase s.tb = s.tb → s.settleFrame = s →
    Safety.RegionsFit s → Safety.StoresCanonical s →
    ∃ t : State, exec .houseFrame s = .next t ∧
      let x : Sample := match s.frame.selected[c] with
        | some src => s.cv[src.link].last[src.slot]
        | none => 0#24
      let q := s.meas[c]
      let w := s.weights
      let y1 := max (-33554432) (min 33554431 (roundDiv (w[0] * x.toInt + w[1] * q.stage1.x1 + w[2] * q.stage1.x2 -
        w[3] * q.stage1.y1 - w[4] * q.stage1.y2) 4194304))
      let y2 := max (-33554432) (min 33554431 (roundDiv (w[5] * y1 + w[6] * q.stage2.x1 + w[7] * q.stage2.x2 -
        w[8] * q.stage2.y1 - w[9] * q.stage2.y2) 4194304))
      let out := lineOutput s.store (s.regionOf c) s.lines[c] x
      let a : Int := match programmeOf s.active c with
        | some p => clampInt (-400) 120 (s.gain[p].frameApp + s.gain[p].frameTrim)
        | none => 0
      let scaled := roundDiv (out.toInt * multiplier a) 4194304
      t.meas[c] = { q with
          stage1 := { x1 := x.toInt, x2 := q.stage1.x1, y1 := y1, y2 := q.stage1.y1 },
          stage2 := { x1 := y1, x2 := q.stage2.x1, y1 := y2, y2 := q.stage2.y1 },
          building := { acc := q.building.acc + y2.natAbs ^ 2 / 65536, peak := max q.building.peak x.toInt.natAbs,
                        fsCount := q.building.fsCount + (if x.toInt = -8388608 ∨ x.toInt = 8388607 then 1 else 0),
                        outClips := q.building.outClips +
                          (if scaled < -8388608 ∨ 8388607 < scaled then 1 else 0) } } ∧
      (let depth := match s.regionOf c with
         | none => s.lines[c].v
         | some r => if s.lines[c].v < r.count * 1024 then s.lines[c].v + 1 else s.lines[c].v
       let pointer := match s.regionOf c with
         | none => s.lines[c].wptr
         | some r => (s.lines[c].wptr + 1) % (r.count * 1024)
       let l : Line := { s.lines[c] with v := depth, wptr := pointer, readAt := s.lines[c].cur, readAlso := none }
       t.lines[c] = match s.lines[c].move with
         | .idle => l
         | .slew => if s.lines[c].cur = s.lines[c].tgt then { l with move := .idle, slew := 0 }
           else { l with slew := s.lines[c].slew + 1 }
         | .cutFall => if s.lines[c].g = 0 then { l with jumpDue := true } else { l with g := s.lines[c].g - 1 }
         | .cutRise => { l with g := min 64 (s.lines[c].g + 1) }) ∧
      (∀ r : Region, s.regionOf c = some r → Safety.BankSound s.active →
        (∀ (d : ChannelId) (y : Region), s.regionOf d = some y → s.lines[d].wptr < y.count * 1024) →
        readCell 0#24 t.store (r.base * 1024 + s.lines[c].wptr) = x) ∧
      (∀ w : Nat, (∀ (d : ChannelId) (y : Region), s.regionOf d = some y → w ≠ y.base * 1024 + s.lines[d].wptr) →
        readCell 0#24 t.store w = readCell 0#24 s.store w)

/-- Link frames, table records and context records taken apart are what was laid out. For every link frame with 16
slots, its cells are 439 in number and taking them apart gives the frame back, every field at every value; a
frame whose parity cell is set over the frame as built has even parity. For every record of every table that its
table accepts, reading its bytes as a record of that table gives the record back, and a record of a table with a
fixed record size takes exactly that many bytes. For every context record whose fields fit the widths of its
table, its 33 bytes read back as the same record, and a gain pair of two gains within −240 to +120 gives G_tgt
back by floor(pair / 361) − 240 and is at most 130,320. -/
def Obligations.FrameAndRecordRoundTrips : Prop :=
  (∀ f : LinkFrame, f.wellFormed = true →
    (frameCells f).length = 439 ∧ readFrame (frameCells f) = f ∧ evenParity (setParity f) = true) ∧
  ((∀ r : Record, r.valid = true →
    readRecord r.table (recordBytes r) = some r ∧
    (r.table ≠ .programmes → (recordBytes r).length = recordSize r.table)) ∧
  ((∀ c : Context, c.members < 2 ^ 4 → c.sum < 2 ^ 58 → c.count < 2 ^ 16 → c.p1 < 2 ^ 42 → c.p2 < 2 ^ 42 → c.p3 < 2 ^ 42 →
    c.p4 < 2 ^ 42 → c.pair < 2 ^ 17 → (contextBytes c).length = 33 ∧ readContext (contextBytes c) = c) ∧
  (∀ g a : Int, -240 ≤ g → g ≤ 120 → -240 ≤ a → a ≤ 120 → pairTarget (gainPair g a) = g ∧ gainPair g a ≤ 130320)))

/-- The state after reset satisfies every invariant. The state after reset has empty queues, an empty delay store
(the model's choice, log entry 7), both stores in canonical form, measurement and integrators within their
bounds, sound banks whose regions fit, lines inside their regions, every gain target inside its limits, every
channel in PRIMARY and no rule holding a programme or a channel. -/
def Obligations.ResetStateIsSound : Prop :=
  Safety.QueuesBounded State.reset ∧ Safety.GainQueuesBounded State.reset ∧ Safety.GainInLimits State.reset ∧
  Safety.LinesInRegions State.reset ∧ Safety.BanksSound State.reset ∧ Safety.SourcesSound State.reset ∧
  Safety.ReasonsSound State.reset ∧ Safety.RegionsFit State.reset ∧ Safety.StoresCanonical State.reset ∧
  Safety.MeasurementBounded State.reset ∧ Safety.IntegratorsBounded State.reset ∧
  State.reset.pending = [] ∧ State.reset.port.relay = [] ∧ State.reset.port.commands = [] ∧
  State.reset.port.replies = [] ∧ State.reset.port.notices = [] ∧ State.reset.store = [] ∧
  (∀ c : ChannelId, State.reset.sources[c] = .primary) ∧ (∀ p : ProgId, State.reset.gain[p].queue = []) ∧
  (∀ r : RuleId, State.reset.alarm.rules[r].muted = 0#8 ∧ State.reset.alarm.rules[r].switched = 0#32)

/-- Every step keeps every management queue and gain queue within its capacity. From every state in which the relay
queue holds at most 8 messages, the command queue 4, the reply queue 8, the notice queue 16 and each gain
schedule queue 4 entries, a step that gives a next state keeps all of that. -/
def Obligations.StepKeepsQueuesBounded : Prop :=
  ∀ s t : State, Safety.QueuesBounded s → Safety.GainQueuesBounded s → step s = .next t →
    Safety.QueuesBounded t ∧ Safety.GainQueuesBounded t

/-- Every step keeps each present programme's G_tgt within its limits. From every state in which G_tgt of every
present programme lies within [−cut_max, +boost_max] of its active record, a step that gives a next state keeps
it so. -/
def Obligations.StepKeepsGainInLimits : Prop :=
  ∀ s t : State, Safety.GainInLimits s → step s = .next t → Safety.GainInLimits t

/-- Every step keeps the regions inside the delay store and both stores of cells in canonical form. From every state
in which each region of both banks lies inside the 1,024 pages and the delay store and the filter coefficients
are in canonical form, a step that gives a next state keeps all of that, and no step stops with a fault. -/
def Obligations.StepKeepsRegionsAndStores : Prop :=
  ∀ s : State, Safety.RegionsFit s → Safety.StoresCanonical s →
    (∀ r : Fault, step s ≠ .fault r) ∧
    (∀ t : State, step s = .next t → Safety.RegionsFit t ∧ Safety.StoresCanonical t)

/-- Every step keeps each line's delay and target inside its region. From every state in which D_line_cur and
D_line_tgt of every channel lie below its region's length, and are 0 without a region, a step that gives a next
state keeps it so. -/
def Obligations.StepKeepsLinesInRegions : Prop :=
  ∀ s t : State, Safety.LinesInRegions s → step s = .next t → Safety.LinesInRegions t

/-- In the active bank no channel is in two programmes and no two regions share a page, after every step. From every
state whose active bank is sound, and whose standby bank is sound when it is armed, a step that gives a next
state keeps it so. -/
def Obligations.StepKeepsBanksSound : Prop :=
  ∀ s t : State, Safety.BanksSound s → step s = .next t → Safety.BanksSound t

/-- A channel stands in the switched set of one rule at most and leaves PRIMARY only with a backup, after every
step. From every state in which a channel's source state is other than PRIMARY only if its active entry has a
backup source, every channel in a switched set is in BACKUP and no channel is in two rules' switched sets, a
step that gives a next state keeps it so. -/
def Obligations.StepKeepsSourcesSound : Prop :=
  ∀ s t : State, Safety.SourcesSound s → step s = .next t → Safety.SourcesSound t

/-- A rule's number is in a reason set exactly while its MUTE action holds the programme, after every step. From
every state in which a rule's number is in a present programme's reason set exactly when the programme is in the
rule's muted set, and muted sets are held only by raised rules with action MUTE over present programmes, a step
that gives a next state keeps it so. The last two clauses of the invariant are of the model's own mark (log
entry 12). -/
def Obligations.StepKeepsReasonsSound : Prop :=
  ∀ s t : State, Safety.ReasonsSound s → step s = .next t → Safety.ReasonsSound t

/-- Every step keeps the measurement and every programme's integrator within their bounds. From every state in which
the slice phase is below N_slice, each building record holds at most 2^34 for each frame it has measured, each
mean square is at most 2^34, each history power is at most the largest programme power, the records of both
banks list at most 8 members of weight at most 31, and each integrator has C at most 65,535 and S at most C
times the largest programme power, with one power more once C is at least 32,768 (a halving rounds), a step that
gives a next state keeps all of that. In such a state S is at most C × 2^42 and below 2^58. -/
def Obligations.StepKeepsIntegratorsBounded : Prop :=
  (∀ s t : State, Safety.MeasurementBounded s → Safety.IntegratorsBounded s → step s = .next t →
    Safety.MeasurementBounded t ∧ Safety.IntegratorsBounded t) ∧
  (∀ (s : State) (p : ProgId), Safety.IntegratorsBounded s →
    s.loud[p].sum ≤ s.loud[p].count * 2 ^ 42 ∧ s.loud[p].sum < 2 ^ 58)
end

