-- ==== Sys2Proof/Laws/Folds.lean ====
section
/-! SUPPORT. What doing one thing for every channel, link, programme or rule can do: an invariant of the one thing is kept, and
an item is left as its own turn leaves it. -/

namespace Sys2Proof.Machine

theorem foldl_keeps {σ ι : Type} {P : σ → Prop} {f : σ → ι → σ} (h : ∀ s i, P s → P (f s i)) :
    ∀ (l : List ι) (s : σ), P s → P (l.foldl f s)
  | [], _, hs => hs
  | i :: l, s, hs => foldl_keeps h l (f s i) (h s i hs)

theorem forChannels_keeps {P : State → Prop} {f : State → ChannelId → State} (h : ∀ s c, P s → P (f s c)) {s : State}
    (hs : P s) : P (forChannels f s) := foldl_keeps h _ s hs
theorem forLinks_keeps {P : State → Prop} {f : State → LinkId → State} (h : ∀ s l, P s → P (f s l)) {s : State}
    (hs : P s) : P (forLinks f s) := foldl_keeps h _ s hs
theorem forProgs_keeps {P : State → Prop} {f : State → ProgId → State} (h : ∀ s p, P s → P (f s p)) {s : State}
    (hs : P s) : P (forProgs f s) := foldl_keeps h _ s hs
theorem forRules_keeps {P : State → Prop} {f : State → RuleId → State} (h : ∀ s r, P s → P (f s r)) {s : State}
    (hs : P s) : P (forRules f s) := foldl_keeps h _ s hs

/-- What no turn changes is unchanged. -/
theorem foldl_same {σ ι α : Type} {view : σ → α} {f : σ → ι → σ} (h : ∀ s i, view (f s i) = view s) (l : List ι) (s : σ) :
    view (l.foldl f s) = view s :=
  foldl_keeps (P := fun t => view t = view s) (fun t i ht => (h t i).trans ht) l s rfl

theorem forChannels_same {α : Type} {view : State → α} {f : State → ChannelId → State}
    (h : ∀ s c, view (f s c) = view s) (s : State) : view (forChannels f s) = view s := foldl_same h _ s
theorem forLinks_same {α : Type} {view : State → α} {f : State → LinkId → State}
    (h : ∀ s l, view (f s l) = view s) (s : State) : view (forLinks f s) = view s := foldl_same h _ s
theorem forProgs_same {α : Type} {view : State → α} {f : State → ProgId → State}
    (h : ∀ s p, view (f s p) = view s) (s : State) : view (forProgs f s) = view s := foldl_same h _ s
theorem forRules_same {α : Type} {view : State → α} {f : State → RuleId → State}
    (h : ∀ s r, view (f s r) = view s) (s : State) : view (forRules f s) = view s := foldl_same h _ s

/-- An item that is not in the list keeps its view, when a turn changes no view but its own. -/
theorem foldl_untouched {σ ι α : Type} {view : σ → ι → α} {f : σ → ι → σ}
    (h : ∀ s i j, j ≠ i → view (f s i) j = view s j) (j : ι) : ∀ (l : List ι) (s : σ), j ∉ l →
    view (l.foldl f s) j = view s j
  | [], _, _ => rfl
  | i :: l, s, hj => by
    rw [List.foldl_cons, foldl_untouched h j l _ (fun hm => hj (List.mem_cons_of_mem i hm)),
      h s i j (fun he => hj (he ▸ List.mem_cons_self))]

/-- An item of a list without repeats is left as its own turn leaves it: the turn finds the item's view as it was at the
start, in a state with every property that the turns keep. -/
theorem foldl_touched {σ ι α : Type} {view : σ → ι → α} {P : σ → Prop} {f : σ → ι → σ}
    (h : ∀ s i j, j ≠ i → view (f s i) j = view s j) (hP : ∀ s i, P s → P (f s i)) (j : ι) :
    ∀ (l : List ι) (s : σ), l.Nodup → j ∈ l → P s →
    ∃ t : σ, P t ∧ view t j = view s j ∧ view (l.foldl f s) j = view (f t j) j
  | i :: l, s, hn, hj, hs => by
    rw [List.nodup_cons] at hn
    rcases List.mem_cons.1 hj with rfl | hm
    · exact ⟨s, hs, rfl, foldl_untouched h j l _ hn.1⟩
    · obtain ⟨t, h1, h2, h3⟩ := foldl_touched h hP j l (f s i) hn.2 hm (hP s i hs)
      exact ⟨t, h1, h2.trans (h s i j (fun he => hn.1 (he ▸ hm))), h3⟩

theorem forChannels_item {α : Type} {view : State → ChannelId → α} {P : State → Prop} {f : State → ChannelId → State}
    (h : ∀ s i j, j ≠ i → view (f s i) j = view s j) (hP : ∀ s i, P s → P (f s i)) {s : State} (hs : P s) (c : ChannelId) :
    ∃ t : State, P t ∧ view t c = view s c ∧ view (forChannels f s) c = view (f t c) c :=
  foldl_touched h hP c _ s (List.nodup_finRange 32) (List.mem_finRange c) hs
theorem forLinks_item {α : Type} {view : State → LinkId → α} {P : State → Prop} {f : State → LinkId → State}
    (h : ∀ s i j, j ≠ i → view (f s i) j = view s j) (hP : ∀ s i, P s → P (f s i)) {s : State} (hs : P s) (l : LinkId) :
    ∃ t : State, P t ∧ view t l = view s l ∧ view (forLinks f s) l = view (f t l) l :=
  foldl_touched h hP l _ s (List.nodup_finRange 4) (List.mem_finRange l) hs
theorem forProgs_item {α : Type} {view : State → ProgId → α} {P : State → Prop} {f : State → ProgId → State}
    (h : ∀ s i j, j ≠ i → view (f s i) j = view s j) (hP : ∀ s i, P s → P (f s i)) {s : State} (hs : P s) (p : ProgId) :
    ∃ t : State, P t ∧ view t p = view s p ∧ view (forProgs f s) p = view (f t p) p :=
  foldl_touched h hP p _ s (List.nodup_finRange 8) (List.mem_finRange p) hs
theorem forRules_item {α : Type} {view : State → RuleId → α} {P : State → Prop} {f : State → RuleId → State}
    (h : ∀ s i j, j ≠ i → view (f s i) j = view s j) (hP : ∀ s i, P s → P (f s i)) {s : State} (hs : P s) (r : RuleId) :
    ∃ t : State, P t ∧ view t r = view s r ∧ view (forRules f s) r = view (f t r) r :=
  foldl_touched h hP r _ s (List.nodup_finRange 32) (List.mem_finRange r) hs

/-! ### Sets of rules, channels and programmes -/

theorem hasMember_insert {w : Nat} (set : BitVec w) (i j : Fin w) :
    hasMember (insertMember set i) j = (hasMember set j || decide (j = i)) := by
  simp [hasMember, insertMember, Fin.ext_iff, eq_comm]

theorem hasMember_erase {w : Nat} (set : BitVec w) (i j : Fin w) :
    hasMember (eraseMember set i) j = (hasMember set j && decide (j ≠ i)) := by
  have hi : i.val < w := i.isLt
  have hj : j.val < w := j.isLt
  simp only [hasMember, eraseMember, BitVec.getLsbD_and, BitVec.getLsbD_not, BitVec.getLsbD_twoPow, hi, hj,
    decide_true, Bool.true_and]
  by_cases h : j = i
  · simp [h]
  · have : ¬ i.val = j.val := fun e => h (Fin.ext e.symm)
    simp [h, this]

end Sys2Proof.Machine
end

