-- ==== Sys2Proof/Laws/State.lean ====
section
/-! SUPPORT. One lemma for each field and each update of the state, true by rfl, and what an updated item reads as. -/

namespace Sys2Proof.Machine

/-! ### setRx -/

@[simp] theorem State.setRx_tb (s : State) (l : LinkId) (x : Receiver) : (s.setRx l x).tb = s.tb := rfl
@[simp] theorem State.setRx_rx (s : State) (l : LinkId) (x : Receiver) : (s.setRx l x).rx = s.rx.set l.val x := rfl
@[simp] theorem State.setRx_cv (s : State) (l : LinkId) (x : Receiver) : (s.setRx l x).cv = s.cv := rfl
@[simp] theorem State.setRx_tables (s : State) (l : LinkId) (x : Receiver) : (s.setRx l x).tables = s.tables := rfl
@[simp] theorem State.setRx_sources (s : State) (l : LinkId) (x : Receiver) : (s.setRx l x).sources = s.sources := rfl
@[simp] theorem State.setRx_lines (s : State) (l : LinkId) (x : Receiver) : (s.setRx l x).lines = s.lines := rfl
@[simp] theorem State.setRx_store (s : State) (l : LinkId) (x : Receiver) : (s.setRx l x).store = s.store := rfl
@[simp] theorem State.setRx_meas (s : State) (l : LinkId) (x : Receiver) : (s.setRx l x).meas = s.meas := rfl
@[simp] theorem State.setRx_weights (s : State) (l : LinkId) (x : Receiver) : (s.setRx l x).weights = s.weights := rfl
@[simp] theorem State.setRx_loud (s : State) (l : LinkId) (x : Receiver) : (s.setRx l x).loud = s.loud := rfl
@[simp] theorem State.setRx_gain (s : State) (l : LinkId) (x : Receiver) : (s.setRx l x).gain = s.gain := rfl
@[simp] theorem State.setRx_alarm (s : State) (l : LinkId) (x : Receiver) : (s.setRx l x).alarm = s.alarm := rfl
@[simp] theorem State.setRx_port (s : State) (l : LinkId) (x : Receiver) : (s.setRx l x).port = s.port := rfl
@[simp] theorem State.setRx_frame (s : State) (l : LinkId) (x : Receiver) : (s.setRx l x).frame = s.frame := rfl
@[simp] theorem State.setRx_h0 (s : State) (l : LinkId) (x : Receiver) : (s.setRx l x).h0 = s.h0 := rfl
@[simp] theorem State.setRx_h1 (s : State) (l : LinkId) (x : Receiver) : (s.setRx l x).h1 = s.h1 := rfl
@[simp] theorem State.setRx_free (s : State) (l : LinkId) (x : Receiver) : (s.setRx l x).free = s.free := rfl
@[simp] theorem State.setRx_pending (s : State) (l : LinkId) (x : Receiver) : (s.setRx l x).pending = s.pending := rfl
theorem State.setRx_get_self (s : State) (l : LinkId) (x : Receiver) : (s.setRx l x).rx[l] = x := by simp
theorem State.setRx_get_ne (s : State) (l k : LinkId) (x : Receiver) (h : k ≠ l) : (s.setRx l x).rx[k] = s.rx[k] := by
  have : l.val ≠ k.val := fun hv => h (Fin.ext hv.symm)
  simp [this]

/-! ### setCv -/

@[simp] theorem State.setCv_tb (s : State) (l : LinkId) (x : Conv) : (s.setCv l x).tb = s.tb := rfl
@[simp] theorem State.setCv_rx (s : State) (l : LinkId) (x : Conv) : (s.setCv l x).rx = s.rx := rfl
@[simp] theorem State.setCv_cv (s : State) (l : LinkId) (x : Conv) : (s.setCv l x).cv = s.cv.set l.val x := rfl
@[simp] theorem State.setCv_tables (s : State) (l : LinkId) (x : Conv) : (s.setCv l x).tables = s.tables := rfl
@[simp] theorem State.setCv_sources (s : State) (l : LinkId) (x : Conv) : (s.setCv l x).sources = s.sources := rfl
@[simp] theorem State.setCv_lines (s : State) (l : LinkId) (x : Conv) : (s.setCv l x).lines = s.lines := rfl
@[simp] theorem State.setCv_store (s : State) (l : LinkId) (x : Conv) : (s.setCv l x).store = s.store := rfl
@[simp] theorem State.setCv_meas (s : State) (l : LinkId) (x : Conv) : (s.setCv l x).meas = s.meas := rfl
@[simp] theorem State.setCv_weights (s : State) (l : LinkId) (x : Conv) : (s.setCv l x).weights = s.weights := rfl
@[simp] theorem State.setCv_loud (s : State) (l : LinkId) (x : Conv) : (s.setCv l x).loud = s.loud := rfl
@[simp] theorem State.setCv_gain (s : State) (l : LinkId) (x : Conv) : (s.setCv l x).gain = s.gain := rfl
@[simp] theorem State.setCv_alarm (s : State) (l : LinkId) (x : Conv) : (s.setCv l x).alarm = s.alarm := rfl
@[simp] theorem State.setCv_port (s : State) (l : LinkId) (x : Conv) : (s.setCv l x).port = s.port := rfl
@[simp] theorem State.setCv_frame (s : State) (l : LinkId) (x : Conv) : (s.setCv l x).frame = s.frame := rfl
@[simp] theorem State.setCv_h0 (s : State) (l : LinkId) (x : Conv) : (s.setCv l x).h0 = s.h0 := rfl
@[simp] theorem State.setCv_h1 (s : State) (l : LinkId) (x : Conv) : (s.setCv l x).h1 = s.h1 := rfl
@[simp] theorem State.setCv_free (s : State) (l : LinkId) (x : Conv) : (s.setCv l x).free = s.free := rfl
@[simp] theorem State.setCv_pending (s : State) (l : LinkId) (x : Conv) : (s.setCv l x).pending = s.pending := rfl
theorem State.setCv_get_self (s : State) (l : LinkId) (x : Conv) : (s.setCv l x).cv[l] = x := by simp
theorem State.setCv_get_ne (s : State) (l k : LinkId) (x : Conv) (h : k ≠ l) : (s.setCv l x).cv[k] = s.cv[k] := by
  have : l.val ≠ k.val := fun hv => h (Fin.ext hv.symm)
  simp [this]

/-! ### setSource -/

@[simp] theorem State.setSource_tb (s : State) (c : ChannelId) (x : SourceState) : (s.setSource c x).tb = s.tb := rfl
@[simp] theorem State.setSource_rx (s : State) (c : ChannelId) (x : SourceState) : (s.setSource c x).rx = s.rx := rfl
@[simp] theorem State.setSource_cv (s : State) (c : ChannelId) (x : SourceState) : (s.setSource c x).cv = s.cv := rfl
@[simp] theorem State.setSource_tables (s : State) (c : ChannelId) (x : SourceState) :
    (s.setSource c x).tables = s.tables := rfl
@[simp] theorem State.setSource_sources (s : State) (c : ChannelId) (x : SourceState) :
    (s.setSource c x).sources = s.sources.set c.val x := rfl
@[simp] theorem State.setSource_lines (s : State) (c : ChannelId) (x : SourceState) :
    (s.setSource c x).lines = s.lines := rfl
@[simp] theorem State.setSource_store (s : State) (c : ChannelId) (x : SourceState) :
    (s.setSource c x).store = s.store := rfl
@[simp] theorem State.setSource_meas (s : State) (c : ChannelId) (x : SourceState) :
    (s.setSource c x).meas = s.meas := rfl
@[simp] theorem State.setSource_weights (s : State) (c : ChannelId) (x : SourceState) :
    (s.setSource c x).weights = s.weights := rfl
@[simp] theorem State.setSource_loud (s : State) (c : ChannelId) (x : SourceState) :
    (s.setSource c x).loud = s.loud := rfl
@[simp] theorem State.setSource_gain (s : State) (c : ChannelId) (x : SourceState) :
    (s.setSource c x).gain = s.gain := rfl
@[simp] theorem State.setSource_alarm (s : State) (c : ChannelId) (x : SourceState) :
    (s.setSource c x).alarm = s.alarm := rfl
@[simp] theorem State.setSource_port (s : State) (c : ChannelId) (x : SourceState) :
    (s.setSource c x).port = s.port := rfl
@[simp] theorem State.setSource_frame (s : State) (c : ChannelId) (x : SourceState) :
    (s.setSource c x).frame = s.frame := rfl
@[simp] theorem State.setSource_h0 (s : State) (c : ChannelId) (x : SourceState) : (s.setSource c x).h0 = s.h0 := rfl
@[simp] theorem State.setSource_h1 (s : State) (c : ChannelId) (x : SourceState) : (s.setSource c x).h1 = s.h1 := rfl
@[simp] theorem State.setSource_free (s : State) (c : ChannelId) (x : SourceState) :
    (s.setSource c x).free = s.free := rfl
@[simp] theorem State.setSource_pending (s : State) (c : ChannelId) (x : SourceState) :
    (s.setSource c x).pending = s.pending := rfl
theorem State.setSource_get_self (s : State) (c : ChannelId) (x : SourceState) : (s.setSource c x).sources[c] = x := by simp
theorem State.setSource_get_ne (s : State) (c k : ChannelId) (x : SourceState) (h : k ≠ c) : (s.setSource c x).sources[k] = s.sources[k] := by
  have : c.val ≠ k.val := fun hv => h (Fin.ext hv.symm)
  simp [this]

/-! ### setLine -/

@[simp] theorem State.setLine_tb (s : State) (c : ChannelId) (x : Line) : (s.setLine c x).tb = s.tb := rfl
@[simp] theorem State.setLine_rx (s : State) (c : ChannelId) (x : Line) : (s.setLine c x).rx = s.rx := rfl
@[simp] theorem State.setLine_cv (s : State) (c : ChannelId) (x : Line) : (s.setLine c x).cv = s.cv := rfl
@[simp] theorem State.setLine_tables (s : State) (c : ChannelId) (x : Line) : (s.setLine c x).tables = s.tables := rfl
@[simp] theorem State.setLine_sources (s : State) (c : ChannelId) (x : Line) :
    (s.setLine c x).sources = s.sources := rfl
@[simp] theorem State.setLine_lines (s : State) (c : ChannelId) (x : Line) :
    (s.setLine c x).lines = s.lines.set c.val x := rfl
@[simp] theorem State.setLine_store (s : State) (c : ChannelId) (x : Line) : (s.setLine c x).store = s.store := rfl
@[simp] theorem State.setLine_meas (s : State) (c : ChannelId) (x : Line) : (s.setLine c x).meas = s.meas := rfl
@[simp] theorem State.setLine_weights (s : State) (c : ChannelId) (x : Line) :
    (s.setLine c x).weights = s.weights := rfl
@[simp] theorem State.setLine_loud (s : State) (c : ChannelId) (x : Line) : (s.setLine c x).loud = s.loud := rfl
@[simp] theorem State.setLine_gain (s : State) (c : ChannelId) (x : Line) : (s.setLine c x).gain = s.gain := rfl
@[simp] theorem State.setLine_alarm (s : State) (c : ChannelId) (x : Line) : (s.setLine c x).alarm = s.alarm := rfl
@[simp] theorem State.setLine_port (s : State) (c : ChannelId) (x : Line) : (s.setLine c x).port = s.port := rfl
@[simp] theorem State.setLine_frame (s : State) (c : ChannelId) (x : Line) : (s.setLine c x).frame = s.frame := rfl
@[simp] theorem State.setLine_h0 (s : State) (c : ChannelId) (x : Line) : (s.setLine c x).h0 = s.h0 := rfl
@[simp] theorem State.setLine_h1 (s : State) (c : ChannelId) (x : Line) : (s.setLine c x).h1 = s.h1 := rfl
@[simp] theorem State.setLine_free (s : State) (c : ChannelId) (x : Line) : (s.setLine c x).free = s.free := rfl
@[simp] theorem State.setLine_pending (s : State) (c : ChannelId) (x : Line) :
    (s.setLine c x).pending = s.pending := rfl
theorem State.setLine_get_self (s : State) (c : ChannelId) (x : Line) : (s.setLine c x).lines[c] = x := by simp
theorem State.setLine_get_ne (s : State) (c k : ChannelId) (x : Line) (h : k ≠ c) : (s.setLine c x).lines[k] = s.lines[k] := by
  have : c.val ≠ k.val := fun hv => h (Fin.ext hv.symm)
  simp [this]

/-! ### setMeas -/

@[simp] theorem State.setMeas_tb (s : State) (c : ChannelId) (x : Meas) : (s.setMeas c x).tb = s.tb := rfl
@[simp] theorem State.setMeas_rx (s : State) (c : ChannelId) (x : Meas) : (s.setMeas c x).rx = s.rx := rfl
@[simp] theorem State.setMeas_cv (s : State) (c : ChannelId) (x : Meas) : (s.setMeas c x).cv = s.cv := rfl
@[simp] theorem State.setMeas_tables (s : State) (c : ChannelId) (x : Meas) : (s.setMeas c x).tables = s.tables := rfl
@[simp] theorem State.setMeas_sources (s : State) (c : ChannelId) (x : Meas) :
    (s.setMeas c x).sources = s.sources := rfl
@[simp] theorem State.setMeas_lines (s : State) (c : ChannelId) (x : Meas) : (s.setMeas c x).lines = s.lines := rfl
@[simp] theorem State.setMeas_store (s : State) (c : ChannelId) (x : Meas) : (s.setMeas c x).store = s.store := rfl
@[simp] theorem State.setMeas_meas (s : State) (c : ChannelId) (x : Meas) :
    (s.setMeas c x).meas = s.meas.set c.val x := rfl
@[simp] theorem State.setMeas_weights (s : State) (c : ChannelId) (x : Meas) :
    (s.setMeas c x).weights = s.weights := rfl
@[simp] theorem State.setMeas_loud (s : State) (c : ChannelId) (x : Meas) : (s.setMeas c x).loud = s.loud := rfl
@[simp] theorem State.setMeas_gain (s : State) (c : ChannelId) (x : Meas) : (s.setMeas c x).gain = s.gain := rfl
@[simp] theorem State.setMeas_alarm (s : State) (c : ChannelId) (x : Meas) : (s.setMeas c x).alarm = s.alarm := rfl
@[simp] theorem State.setMeas_port (s : State) (c : ChannelId) (x : Meas) : (s.setMeas c x).port = s.port := rfl
@[simp] theorem State.setMeas_frame (s : State) (c : ChannelId) (x : Meas) : (s.setMeas c x).frame = s.frame := rfl
@[simp] theorem State.setMeas_h0 (s : State) (c : ChannelId) (x : Meas) : (s.setMeas c x).h0 = s.h0 := rfl
@[simp] theorem State.setMeas_h1 (s : State) (c : ChannelId) (x : Meas) : (s.setMeas c x).h1 = s.h1 := rfl
@[simp] theorem State.setMeas_free (s : State) (c : ChannelId) (x : Meas) : (s.setMeas c x).free = s.free := rfl
@[simp] theorem State.setMeas_pending (s : State) (c : ChannelId) (x : Meas) :
    (s.setMeas c x).pending = s.pending := rfl
theorem State.setMeas_get_self (s : State) (c : ChannelId) (x : Meas) : (s.setMeas c x).meas[c] = x := by simp
theorem State.setMeas_get_ne (s : State) (c k : ChannelId) (x : Meas) (h : k ≠ c) : (s.setMeas c x).meas[k] = s.meas[k] := by
  have : c.val ≠ k.val := fun hv => h (Fin.ext hv.symm)
  simp [this]

/-! ### setLoud -/

@[simp] theorem State.setLoud_tb (s : State) (p : ProgId) (x : Loud) : (s.setLoud p x).tb = s.tb := rfl
@[simp] theorem State.setLoud_rx (s : State) (p : ProgId) (x : Loud) : (s.setLoud p x).rx = s.rx := rfl
@[simp] theorem State.setLoud_cv (s : State) (p : ProgId) (x : Loud) : (s.setLoud p x).cv = s.cv := rfl
@[simp] theorem State.setLoud_tables (s : State) (p : ProgId) (x : Loud) : (s.setLoud p x).tables = s.tables := rfl
@[simp] theorem State.setLoud_sources (s : State) (p : ProgId) (x : Loud) : (s.setLoud p x).sources = s.sources := rfl
@[simp] theorem State.setLoud_lines (s : State) (p : ProgId) (x : Loud) : (s.setLoud p x).lines = s.lines := rfl
@[simp] theorem State.setLoud_store (s : State) (p : ProgId) (x : Loud) : (s.setLoud p x).store = s.store := rfl
@[simp] theorem State.setLoud_meas (s : State) (p : ProgId) (x : Loud) : (s.setLoud p x).meas = s.meas := rfl
@[simp] theorem State.setLoud_weights (s : State) (p : ProgId) (x : Loud) : (s.setLoud p x).weights = s.weights := rfl
@[simp] theorem State.setLoud_loud (s : State) (p : ProgId) (x : Loud) :
    (s.setLoud p x).loud = s.loud.set p.val x := rfl
@[simp] theorem State.setLoud_gain (s : State) (p : ProgId) (x : Loud) : (s.setLoud p x).gain = s.gain := rfl
@[simp] theorem State.setLoud_alarm (s : State) (p : ProgId) (x : Loud) : (s.setLoud p x).alarm = s.alarm := rfl
@[simp] theorem State.setLoud_port (s : State) (p : ProgId) (x : Loud) : (s.setLoud p x).port = s.port := rfl
@[simp] theorem State.setLoud_frame (s : State) (p : ProgId) (x : Loud) : (s.setLoud p x).frame = s.frame := rfl
@[simp] theorem State.setLoud_h0 (s : State) (p : ProgId) (x : Loud) : (s.setLoud p x).h0 = s.h0 := rfl
@[simp] theorem State.setLoud_h1 (s : State) (p : ProgId) (x : Loud) : (s.setLoud p x).h1 = s.h1 := rfl
@[simp] theorem State.setLoud_free (s : State) (p : ProgId) (x : Loud) : (s.setLoud p x).free = s.free := rfl
@[simp] theorem State.setLoud_pending (s : State) (p : ProgId) (x : Loud) : (s.setLoud p x).pending = s.pending := rfl
theorem State.setLoud_get_self (s : State) (p : ProgId) (x : Loud) : (s.setLoud p x).loud[p] = x := by simp
theorem State.setLoud_get_ne (s : State) (p k : ProgId) (x : Loud) (h : k ≠ p) : (s.setLoud p x).loud[k] = s.loud[k] := by
  have : p.val ≠ k.val := fun hv => h (Fin.ext hv.symm)
  simp [this]

/-! ### setGain -/

@[simp] theorem State.setGain_tb (s : State) (p : ProgId) (x : Gain) : (s.setGain p x).tb = s.tb := rfl
@[simp] theorem State.setGain_rx (s : State) (p : ProgId) (x : Gain) : (s.setGain p x).rx = s.rx := rfl
@[simp] theorem State.setGain_cv (s : State) (p : ProgId) (x : Gain) : (s.setGain p x).cv = s.cv := rfl
@[simp] theorem State.setGain_tables (s : State) (p : ProgId) (x : Gain) : (s.setGain p x).tables = s.tables := rfl
@[simp] theorem State.setGain_sources (s : State) (p : ProgId) (x : Gain) : (s.setGain p x).sources = s.sources := rfl
@[simp] theorem State.setGain_lines (s : State) (p : ProgId) (x : Gain) : (s.setGain p x).lines = s.lines := rfl
@[simp] theorem State.setGain_store (s : State) (p : ProgId) (x : Gain) : (s.setGain p x).store = s.store := rfl
@[simp] theorem State.setGain_meas (s : State) (p : ProgId) (x : Gain) : (s.setGain p x).meas = s.meas := rfl
@[simp] theorem State.setGain_weights (s : State) (p : ProgId) (x : Gain) : (s.setGain p x).weights = s.weights := rfl
@[simp] theorem State.setGain_loud (s : State) (p : ProgId) (x : Gain) : (s.setGain p x).loud = s.loud := rfl
@[simp] theorem State.setGain_gain (s : State) (p : ProgId) (x : Gain) :
    (s.setGain p x).gain = s.gain.set p.val x := rfl
@[simp] theorem State.setGain_alarm (s : State) (p : ProgId) (x : Gain) : (s.setGain p x).alarm = s.alarm := rfl
@[simp] theorem State.setGain_port (s : State) (p : ProgId) (x : Gain) : (s.setGain p x).port = s.port := rfl
@[simp] theorem State.setGain_frame (s : State) (p : ProgId) (x : Gain) : (s.setGain p x).frame = s.frame := rfl
@[simp] theorem State.setGain_h0 (s : State) (p : ProgId) (x : Gain) : (s.setGain p x).h0 = s.h0 := rfl
@[simp] theorem State.setGain_h1 (s : State) (p : ProgId) (x : Gain) : (s.setGain p x).h1 = s.h1 := rfl
@[simp] theorem State.setGain_free (s : State) (p : ProgId) (x : Gain) : (s.setGain p x).free = s.free := rfl
@[simp] theorem State.setGain_pending (s : State) (p : ProgId) (x : Gain) : (s.setGain p x).pending = s.pending := rfl
theorem State.setGain_get_self (s : State) (p : ProgId) (x : Gain) : (s.setGain p x).gain[p] = x := by simp
theorem State.setGain_get_ne (s : State) (p k : ProgId) (x : Gain) (h : k ≠ p) : (s.setGain p x).gain[k] = s.gain[k] := by
  have : p.val ≠ k.val := fun hv => h (Fin.ext hv.symm)
  simp [this]

/-! ### setRule -/

@[simp] theorem State.setRule_tb (s : State) (r : RuleId) (x : Rule) : (s.setRule r x).tb = s.tb := rfl
@[simp] theorem State.setRule_rx (s : State) (r : RuleId) (x : Rule) : (s.setRule r x).rx = s.rx := rfl
@[simp] theorem State.setRule_cv (s : State) (r : RuleId) (x : Rule) : (s.setRule r x).cv = s.cv := rfl
@[simp] theorem State.setRule_tables (s : State) (r : RuleId) (x : Rule) : (s.setRule r x).tables = s.tables := rfl
@[simp] theorem State.setRule_sources (s : State) (r : RuleId) (x : Rule) : (s.setRule r x).sources = s.sources := rfl
@[simp] theorem State.setRule_lines (s : State) (r : RuleId) (x : Rule) : (s.setRule r x).lines = s.lines := rfl
@[simp] theorem State.setRule_store (s : State) (r : RuleId) (x : Rule) : (s.setRule r x).store = s.store := rfl
@[simp] theorem State.setRule_meas (s : State) (r : RuleId) (x : Rule) : (s.setRule r x).meas = s.meas := rfl
@[simp] theorem State.setRule_weights (s : State) (r : RuleId) (x : Rule) : (s.setRule r x).weights = s.weights := rfl
@[simp] theorem State.setRule_loud (s : State) (r : RuleId) (x : Rule) : (s.setRule r x).loud = s.loud := rfl
@[simp] theorem State.setRule_gain (s : State) (r : RuleId) (x : Rule) : (s.setRule r x).gain = s.gain := rfl
@[simp] theorem State.setRule_port (s : State) (r : RuleId) (x : Rule) : (s.setRule r x).port = s.port := rfl
@[simp] theorem State.setRule_frame (s : State) (r : RuleId) (x : Rule) : (s.setRule r x).frame = s.frame := rfl
@[simp] theorem State.setRule_h0 (s : State) (r : RuleId) (x : Rule) : (s.setRule r x).h0 = s.h0 := rfl
@[simp] theorem State.setRule_h1 (s : State) (r : RuleId) (x : Rule) : (s.setRule r x).h1 = s.h1 := rfl
@[simp] theorem State.setRule_free (s : State) (r : RuleId) (x : Rule) : (s.setRule r x).free = s.free := rfl
@[simp] theorem State.setRule_pending (s : State) (r : RuleId) (x : Rule) : (s.setRule r x).pending = s.pending := rfl
@[simp] theorem State.setRule_rules (s : State) (r : RuleId) (x : Rule) :
    (s.setRule r x).alarm.rules = s.alarm.rules.set r.val x := rfl
@[simp] theorem State.setRule_due (s : State) (r : RuleId) (x : Rule) : (s.setRule r x).alarm.due = s.alarm.due := rfl
theorem State.setRule_get_self (s : State) (r : RuleId) (x : Rule) : (s.setRule r x).alarm.rules[r] = x := by simp
theorem State.setRule_get_ne (s : State) (r k : RuleId) (x : Rule) (h : k ≠ r) :
    (s.setRule r x).alarm.rules[k] = s.alarm.rules[k] := by
  have : r.val ≠ k.val := fun hv => h (Fin.ext hv.symm)
  simp [this]

/-! ### setTb -/

@[simp] theorem State.setTb_tb (s : State) (x : Timebase) : (s.setTb x).tb = x := rfl
@[simp] theorem State.setTb_rx (s : State) (x : Timebase) : (s.setTb x).rx = s.rx := rfl
@[simp] theorem State.setTb_cv (s : State) (x : Timebase) : (s.setTb x).cv = s.cv := rfl
@[simp] theorem State.setTb_tables (s : State) (x : Timebase) : (s.setTb x).tables = s.tables := rfl
@[simp] theorem State.setTb_sources (s : State) (x : Timebase) : (s.setTb x).sources = s.sources := rfl
@[simp] theorem State.setTb_lines (s : State) (x : Timebase) : (s.setTb x).lines = s.lines := rfl
@[simp] theorem State.setTb_store (s : State) (x : Timebase) : (s.setTb x).store = s.store := rfl
@[simp] theorem State.setTb_meas (s : State) (x : Timebase) : (s.setTb x).meas = s.meas := rfl
@[simp] theorem State.setTb_weights (s : State) (x : Timebase) : (s.setTb x).weights = s.weights := rfl
@[simp] theorem State.setTb_loud (s : State) (x : Timebase) : (s.setTb x).loud = s.loud := rfl
@[simp] theorem State.setTb_gain (s : State) (x : Timebase) : (s.setTb x).gain = s.gain := rfl
@[simp] theorem State.setTb_alarm (s : State) (x : Timebase) : (s.setTb x).alarm = s.alarm := rfl
@[simp] theorem State.setTb_port (s : State) (x : Timebase) : (s.setTb x).port = s.port := rfl
@[simp] theorem State.setTb_frame (s : State) (x : Timebase) : (s.setTb x).frame = s.frame := rfl
@[simp] theorem State.setTb_h0 (s : State) (x : Timebase) : (s.setTb x).h0 = s.h0 := rfl
@[simp] theorem State.setTb_h1 (s : State) (x : Timebase) : (s.setTb x).h1 = s.h1 := rfl
@[simp] theorem State.setTb_free (s : State) (x : Timebase) : (s.setTb x).free = s.free := rfl
@[simp] theorem State.setTb_pending (s : State) (x : Timebase) : (s.setTb x).pending = s.pending := rfl

/-! ### setTables -/

@[simp] theorem State.setTables_tb (s : State) (x : Tables) : (s.setTables x).tb = s.tb := rfl
@[simp] theorem State.setTables_rx (s : State) (x : Tables) : (s.setTables x).rx = s.rx := rfl
@[simp] theorem State.setTables_cv (s : State) (x : Tables) : (s.setTables x).cv = s.cv := rfl
@[simp] theorem State.setTables_tables (s : State) (x : Tables) : (s.setTables x).tables = x := rfl
@[simp] theorem State.setTables_sources (s : State) (x : Tables) : (s.setTables x).sources = s.sources := rfl
@[simp] theorem State.setTables_lines (s : State) (x : Tables) : (s.setTables x).lines = s.lines := rfl
@[simp] theorem State.setTables_store (s : State) (x : Tables) : (s.setTables x).store = s.store := rfl
@[simp] theorem State.setTables_meas (s : State) (x : Tables) : (s.setTables x).meas = s.meas := rfl
@[simp] theorem State.setTables_weights (s : State) (x : Tables) : (s.setTables x).weights = s.weights := rfl
@[simp] theorem State.setTables_loud (s : State) (x : Tables) : (s.setTables x).loud = s.loud := rfl
@[simp] theorem State.setTables_gain (s : State) (x : Tables) : (s.setTables x).gain = s.gain := rfl
@[simp] theorem State.setTables_alarm (s : State) (x : Tables) : (s.setTables x).alarm = s.alarm := rfl
@[simp] theorem State.setTables_port (s : State) (x : Tables) : (s.setTables x).port = s.port := rfl
@[simp] theorem State.setTables_frame (s : State) (x : Tables) : (s.setTables x).frame = s.frame := rfl
@[simp] theorem State.setTables_h0 (s : State) (x : Tables) : (s.setTables x).h0 = s.h0 := rfl
@[simp] theorem State.setTables_h1 (s : State) (x : Tables) : (s.setTables x).h1 = s.h1 := rfl
@[simp] theorem State.setTables_free (s : State) (x : Tables) : (s.setTables x).free = s.free := rfl
@[simp] theorem State.setTables_pending (s : State) (x : Tables) : (s.setTables x).pending = s.pending := rfl

/-! ### setPort -/

@[simp] theorem State.setPort_tb (s : State) (x : Port) : (s.setPort x).tb = s.tb := rfl
@[simp] theorem State.setPort_rx (s : State) (x : Port) : (s.setPort x).rx = s.rx := rfl
@[simp] theorem State.setPort_cv (s : State) (x : Port) : (s.setPort x).cv = s.cv := rfl
@[simp] theorem State.setPort_tables (s : State) (x : Port) : (s.setPort x).tables = s.tables := rfl
@[simp] theorem State.setPort_sources (s : State) (x : Port) : (s.setPort x).sources = s.sources := rfl
@[simp] theorem State.setPort_lines (s : State) (x : Port) : (s.setPort x).lines = s.lines := rfl
@[simp] theorem State.setPort_store (s : State) (x : Port) : (s.setPort x).store = s.store := rfl
@[simp] theorem State.setPort_meas (s : State) (x : Port) : (s.setPort x).meas = s.meas := rfl
@[simp] theorem State.setPort_weights (s : State) (x : Port) : (s.setPort x).weights = s.weights := rfl
@[simp] theorem State.setPort_loud (s : State) (x : Port) : (s.setPort x).loud = s.loud := rfl
@[simp] theorem State.setPort_gain (s : State) (x : Port) : (s.setPort x).gain = s.gain := rfl
@[simp] theorem State.setPort_alarm (s : State) (x : Port) : (s.setPort x).alarm = s.alarm := rfl
@[simp] theorem State.setPort_port (s : State) (x : Port) : (s.setPort x).port = x := rfl
@[simp] theorem State.setPort_frame (s : State) (x : Port) : (s.setPort x).frame = s.frame := rfl
@[simp] theorem State.setPort_h0 (s : State) (x : Port) : (s.setPort x).h0 = s.h0 := rfl
@[simp] theorem State.setPort_h1 (s : State) (x : Port) : (s.setPort x).h1 = s.h1 := rfl
@[simp] theorem State.setPort_free (s : State) (x : Port) : (s.setPort x).free = s.free := rfl
@[simp] theorem State.setPort_pending (s : State) (x : Port) : (s.setPort x).pending = s.pending := rfl

/-! ### setFrame -/

@[simp] theorem State.setFrame_tb (s : State) (x : Frame) : (s.setFrame x).tb = s.tb := rfl
@[simp] theorem State.setFrame_rx (s : State) (x : Frame) : (s.setFrame x).rx = s.rx := rfl
@[simp] theorem State.setFrame_cv (s : State) (x : Frame) : (s.setFrame x).cv = s.cv := rfl
@[simp] theorem State.setFrame_tables (s : State) (x : Frame) : (s.setFrame x).tables = s.tables := rfl
@[simp] theorem State.setFrame_sources (s : State) (x : Frame) : (s.setFrame x).sources = s.sources := rfl
@[simp] theorem State.setFrame_lines (s : State) (x : Frame) : (s.setFrame x).lines = s.lines := rfl
@[simp] theorem State.setFrame_store (s : State) (x : Frame) : (s.setFrame x).store = s.store := rfl
@[simp] theorem State.setFrame_meas (s : State) (x : Frame) : (s.setFrame x).meas = s.meas := rfl
@[simp] theorem State.setFrame_weights (s : State) (x : Frame) : (s.setFrame x).weights = s.weights := rfl
@[simp] theorem State.setFrame_loud (s : State) (x : Frame) : (s.setFrame x).loud = s.loud := rfl
@[simp] theorem State.setFrame_gain (s : State) (x : Frame) : (s.setFrame x).gain = s.gain := rfl
@[simp] theorem State.setFrame_alarm (s : State) (x : Frame) : (s.setFrame x).alarm = s.alarm := rfl
@[simp] theorem State.setFrame_port (s : State) (x : Frame) : (s.setFrame x).port = s.port := rfl
@[simp] theorem State.setFrame_frame (s : State) (x : Frame) : (s.setFrame x).frame = x := rfl
@[simp] theorem State.setFrame_h0 (s : State) (x : Frame) : (s.setFrame x).h0 = s.h0 := rfl
@[simp] theorem State.setFrame_h1 (s : State) (x : Frame) : (s.setFrame x).h1 = s.h1 := rfl
@[simp] theorem State.setFrame_free (s : State) (x : Frame) : (s.setFrame x).free = s.free := rfl
@[simp] theorem State.setFrame_pending (s : State) (x : Frame) : (s.setFrame x).pending = s.pending := rfl

/-! ### setAlarm -/

@[simp] theorem State.setAlarm_tb (s : State) (x : Alarm) : (s.setAlarm x).tb = s.tb := rfl
@[simp] theorem State.setAlarm_rx (s : State) (x : Alarm) : (s.setAlarm x).rx = s.rx := rfl
@[simp] theorem State.setAlarm_cv (s : State) (x : Alarm) : (s.setAlarm x).cv = s.cv := rfl
@[simp] theorem State.setAlarm_tables (s : State) (x : Alarm) : (s.setAlarm x).tables = s.tables := rfl
@[simp] theorem State.setAlarm_sources (s : State) (x : Alarm) : (s.setAlarm x).sources = s.sources := rfl
@[simp] theorem State.setAlarm_lines (s : State) (x : Alarm) : (s.setAlarm x).lines = s.lines := rfl
@[simp] theorem State.setAlarm_store (s : State) (x : Alarm) : (s.setAlarm x).store = s.store := rfl
@[simp] theorem State.setAlarm_meas (s : State) (x : Alarm) : (s.setAlarm x).meas = s.meas := rfl
@[simp] theorem State.setAlarm_weights (s : State) (x : Alarm) : (s.setAlarm x).weights = s.weights := rfl
@[simp] theorem State.setAlarm_loud (s : State) (x : Alarm) : (s.setAlarm x).loud = s.loud := rfl
@[simp] theorem State.setAlarm_gain (s : State) (x : Alarm) : (s.setAlarm x).gain = s.gain := rfl
@[simp] theorem State.setAlarm_alarm (s : State) (x : Alarm) : (s.setAlarm x).alarm = x := rfl
@[simp] theorem State.setAlarm_port (s : State) (x : Alarm) : (s.setAlarm x).port = s.port := rfl
@[simp] theorem State.setAlarm_frame (s : State) (x : Alarm) : (s.setAlarm x).frame = s.frame := rfl
@[simp] theorem State.setAlarm_h0 (s : State) (x : Alarm) : (s.setAlarm x).h0 = s.h0 := rfl
@[simp] theorem State.setAlarm_h1 (s : State) (x : Alarm) : (s.setAlarm x).h1 = s.h1 := rfl
@[simp] theorem State.setAlarm_free (s : State) (x : Alarm) : (s.setAlarm x).free = s.free := rfl
@[simp] theorem State.setAlarm_pending (s : State) (x : Alarm) : (s.setAlarm x).pending = s.pending := rfl

/-! ### tookFree and setPending -/

@[simp] theorem State.tookFree_tb (s : State) : s.tookFree.tb = s.tb := rfl
@[simp] theorem State.tookFree_rx (s : State) : s.tookFree.rx = s.rx := rfl
@[simp] theorem State.tookFree_cv (s : State) : s.tookFree.cv = s.cv := rfl
@[simp] theorem State.tookFree_tables (s : State) : s.tookFree.tables = s.tables := rfl
@[simp] theorem State.tookFree_sources (s : State) : s.tookFree.sources = s.sources := rfl
@[simp] theorem State.tookFree_lines (s : State) : s.tookFree.lines = s.lines := rfl
@[simp] theorem State.tookFree_store (s : State) : s.tookFree.store = s.store := rfl
@[simp] theorem State.tookFree_meas (s : State) : s.tookFree.meas = s.meas := rfl
@[simp] theorem State.tookFree_weights (s : State) : s.tookFree.weights = s.weights := rfl
@[simp] theorem State.tookFree_loud (s : State) : s.tookFree.loud = s.loud := rfl
@[simp] theorem State.tookFree_gain (s : State) : s.tookFree.gain = s.gain := rfl
@[simp] theorem State.tookFree_alarm (s : State) : s.tookFree.alarm = s.alarm := rfl
@[simp] theorem State.tookFree_port (s : State) : s.tookFree.port = s.port := rfl
@[simp] theorem State.tookFree_frame (s : State) : s.tookFree.frame = s.frame := rfl
@[simp] theorem State.tookFree_h0 (s : State) : s.tookFree.h0 = s.h0 := rfl
@[simp] theorem State.tookFree_h1 (s : State) : s.tookFree.h1 = s.h1 := rfl
@[simp] theorem State.tookFree_free (s : State) : s.tookFree.free = s.free + 1 := rfl
@[simp] theorem State.tookFree_pending (s : State) : s.tookFree.pending = s.pending := rfl
@[simp] theorem State.setPending_tb (s : State) (q : List Instr) : (s.setPending q).tb = s.tb := rfl
@[simp] theorem State.setPending_rx (s : State) (q : List Instr) : (s.setPending q).rx = s.rx := rfl
@[simp] theorem State.setPending_cv (s : State) (q : List Instr) : (s.setPending q).cv = s.cv := rfl
@[simp] theorem State.setPending_tables (s : State) (q : List Instr) : (s.setPending q).tables = s.tables := rfl
@[simp] theorem State.setPending_sources (s : State) (q : List Instr) : (s.setPending q).sources = s.sources := rfl
@[simp] theorem State.setPending_lines (s : State) (q : List Instr) : (s.setPending q).lines = s.lines := rfl
@[simp] theorem State.setPending_store (s : State) (q : List Instr) : (s.setPending q).store = s.store := rfl
@[simp] theorem State.setPending_meas (s : State) (q : List Instr) : (s.setPending q).meas = s.meas := rfl
@[simp] theorem State.setPending_weights (s : State) (q : List Instr) : (s.setPending q).weights = s.weights := rfl
@[simp] theorem State.setPending_loud (s : State) (q : List Instr) : (s.setPending q).loud = s.loud := rfl
@[simp] theorem State.setPending_gain (s : State) (q : List Instr) : (s.setPending q).gain = s.gain := rfl
@[simp] theorem State.setPending_alarm (s : State) (q : List Instr) : (s.setPending q).alarm = s.alarm := rfl
@[simp] theorem State.setPending_port (s : State) (q : List Instr) : (s.setPending q).port = s.port := rfl
@[simp] theorem State.setPending_frame (s : State) (q : List Instr) : (s.setPending q).frame = s.frame := rfl
@[simp] theorem State.setPending_h0 (s : State) (q : List Instr) : (s.setPending q).h0 = s.h0 := rfl
@[simp] theorem State.setPending_h1 (s : State) (q : List Instr) : (s.setPending q).h1 = s.h1 := rfl
@[simp] theorem State.setPending_free (s : State) (q : List Instr) : (s.setPending q).free = s.free := rfl
@[simp] theorem State.setPending_pending (s : State) (q : List Instr) : (s.setPending q).pending = q := rfl

/-! ### takeCommand -/

@[simp] theorem State.takeCommand_tb (s : State) (rest : List Message) : (s.takeCommand rest).tb = s.tb := rfl
@[simp] theorem State.takeCommand_rx (s : State) (rest : List Message) : (s.takeCommand rest).rx = s.rx := rfl
@[simp] theorem State.takeCommand_cv (s : State) (rest : List Message) : (s.takeCommand rest).cv = s.cv := rfl
@[simp] theorem State.takeCommand_tables (s : State) (rest : List Message) :
    (s.takeCommand rest).tables = s.tables := rfl
@[simp] theorem State.takeCommand_sources (s : State) (rest : List Message) :
    (s.takeCommand rest).sources = s.sources := rfl
@[simp] theorem State.takeCommand_lines (s : State) (rest : List Message) :
    (s.takeCommand rest).lines = s.lines := rfl
@[simp] theorem State.takeCommand_store (s : State) (rest : List Message) :
    (s.takeCommand rest).store = s.store := rfl
@[simp] theorem State.takeCommand_meas (s : State) (rest : List Message) : (s.takeCommand rest).meas = s.meas := rfl
@[simp] theorem State.takeCommand_weights (s : State) (rest : List Message) :
    (s.takeCommand rest).weights = s.weights := rfl
@[simp] theorem State.takeCommand_loud (s : State) (rest : List Message) : (s.takeCommand rest).loud = s.loud := rfl
@[simp] theorem State.takeCommand_gain (s : State) (rest : List Message) : (s.takeCommand rest).gain = s.gain := rfl
@[simp] theorem State.takeCommand_alarm (s : State) (rest : List Message) :
    (s.takeCommand rest).alarm = s.alarm := rfl
@[simp] theorem State.takeCommand_h0 (s : State) (rest : List Message) : (s.takeCommand rest).h0 = s.h0 := rfl
@[simp] theorem State.takeCommand_h1 (s : State) (rest : List Message) : (s.takeCommand rest).h1 = s.h1 := rfl
@[simp] theorem State.takeCommand_free (s : State) (rest : List Message) : (s.takeCommand rest).free = s.free := rfl
@[simp] theorem State.takeCommand_pending (s : State) (rest : List Message) :
    (s.takeCommand rest).pending = s.pending := rfl
@[simp] theorem State.takeCommand_commands (s : State) (rest : List Message) :
    (s.takeCommand rest).port.commands = rest := rfl
@[simp] theorem State.takeCommand_addr (s : State) (rest : List Message) :
    (s.takeCommand rest).port.addr = s.port.addr := rfl
@[simp] theorem State.takeCommand_mlk (s : State) (rest : List Message) :
    (s.takeCommand rest).port.mlk = s.port.mlk := rfl
@[simp] theorem State.takeCommand_assembler (s : State) (rest : List Message) :
    (s.takeCommand rest).port.assembler = s.port.assembler := rfl
@[simp] theorem State.takeCommand_relay (s : State) (rest : List Message) :
    (s.takeCommand rest).port.relay = s.port.relay := rfl
@[simp] theorem State.takeCommand_replies (s : State) (rest : List Message) :
    (s.takeCommand rest).port.replies = s.port.replies := rfl
@[simp] theorem State.takeCommand_notices (s : State) (rest : List Message) :
    (s.takeCommand rest).port.notices = s.port.notices := rfl
@[simp] theorem State.takeCommand_noticesLost (s : State) (rest : List Message) :
    (s.takeCommand rest).port.noticesLost = s.port.noticesLost := rfl
@[simp] theorem State.takeCommand_holding (s : State) (rest : List Message) :
    (s.takeCommand rest).port.holding = s.port.holding := rfl
@[simp] theorem State.takeCommand_flight (s : State) (rest : List Message) :
    (s.takeCommand rest).port.flight = s.port.flight := rfl
@[simp] theorem State.takeCommand_lastServed (s : State) (rest : List Message) :
    (s.takeCommand rest).port.lastServed = s.port.lastServed := rfl
@[simp] theorem State.takeCommand_seq (s : State) (rest : List Message) :
    (s.takeCommand rest).port.seq = s.port.seq := rfl
@[simp] theorem State.takeCommand_errors (s : State) (rest : List Message) :
    (s.takeCommand rest).port.errors = s.port.errors := rfl
@[simp] theorem State.takeCommand_cause (s : State) (rest : List Message) :
    (s.takeCommand rest).port.cause = s.port.cause := rfl
@[simp] theorem State.takeCommand_domain (s : State) (rest : List Message) :
    (s.takeCommand rest).port.domain = s.port.domain := rfl

/-! ### What is read through the tables alone -/

@[simp] theorem State.setLine_active (s : State) (c : ChannelId) (x : Line) : (s.setLine c x).active = s.active := rfl
@[simp] theorem State.setLine_record (s : State) (c : ChannelId) (x : Line) (q : ProgId) :
    (s.setLine c x).record q = s.record q := rfl
@[simp] theorem State.setLine_present (s : State) (c : ChannelId) (x : Line) (q : ProgId) :
    (s.setLine c x).present q = s.present q := rfl
@[simp] theorem State.setLine_regionOf (s : State) (c : ChannelId) (x : Line) (d : ChannelId) :
    (s.setLine c x).regionOf d = s.regionOf d := rfl
@[simp] theorem State.setLine_recordOf (s : State) (c : ChannelId) (x : Line) (d : ChannelId) :
    (s.setLine c x).recordOf d = s.recordOf d := rfl
@[simp] theorem State.setLine_modeOf (s : State) (c : ChannelId) (x : Line) (k : LinkId) :
    (s.setLine c x).modeOf k = s.modeOf k := rfl
@[simp] theorem State.setLine_selectedOf (s : State) (c : ChannelId) (x : Line) (d : ChannelId) :
    (s.setLine c x).selectedOf d = s.selectedOf d := rfl
@[simp] theorem State.setGain_active (s : State) (p : ProgId) (x : Gain) : (s.setGain p x).active = s.active := rfl
@[simp] theorem State.setGain_record (s : State) (p : ProgId) (x : Gain) (q : ProgId) :
    (s.setGain p x).record q = s.record q := rfl
@[simp] theorem State.setGain_present (s : State) (p : ProgId) (x : Gain) (q : ProgId) :
    (s.setGain p x).present q = s.present q := rfl
@[simp] theorem State.setGain_regionOf (s : State) (p : ProgId) (x : Gain) (d : ChannelId) :
    (s.setGain p x).regionOf d = s.regionOf d := rfl
@[simp] theorem State.setGain_recordOf (s : State) (p : ProgId) (x : Gain) (d : ChannelId) :
    (s.setGain p x).recordOf d = s.recordOf d := rfl
@[simp] theorem State.setGain_modeOf (s : State) (p : ProgId) (x : Gain) (k : LinkId) :
    (s.setGain p x).modeOf k = s.modeOf k := rfl
@[simp] theorem State.setGain_selectedOf (s : State) (p : ProgId) (x : Gain) (d : ChannelId) :
    (s.setGain p x).selectedOf d = s.selectedOf d := rfl
@[simp] theorem State.setLoud_active (s : State) (p : ProgId) (x : Loud) : (s.setLoud p x).active = s.active := rfl
@[simp] theorem State.setLoud_record (s : State) (p : ProgId) (x : Loud) (q : ProgId) :
    (s.setLoud p x).record q = s.record q := rfl
@[simp] theorem State.setLoud_present (s : State) (p : ProgId) (x : Loud) (q : ProgId) :
    (s.setLoud p x).present q = s.present q := rfl
@[simp] theorem State.setLoud_regionOf (s : State) (p : ProgId) (x : Loud) (d : ChannelId) :
    (s.setLoud p x).regionOf d = s.regionOf d := rfl
@[simp] theorem State.setLoud_recordOf (s : State) (p : ProgId) (x : Loud) (d : ChannelId) :
    (s.setLoud p x).recordOf d = s.recordOf d := rfl
@[simp] theorem State.setLoud_modeOf (s : State) (p : ProgId) (x : Loud) (k : LinkId) :
    (s.setLoud p x).modeOf k = s.modeOf k := rfl
@[simp] theorem State.setLoud_selectedOf (s : State) (p : ProgId) (x : Loud) (d : ChannelId) :
    (s.setLoud p x).selectedOf d = s.selectedOf d := rfl
@[simp] theorem State.setMeas_active (s : State) (c : ChannelId) (x : Meas) : (s.setMeas c x).active = s.active := rfl
@[simp] theorem State.setMeas_record (s : State) (c : ChannelId) (x : Meas) (q : ProgId) :
    (s.setMeas c x).record q = s.record q := rfl
@[simp] theorem State.setMeas_present (s : State) (c : ChannelId) (x : Meas) (q : ProgId) :
    (s.setMeas c x).present q = s.present q := rfl
@[simp] theorem State.setMeas_regionOf (s : State) (c : ChannelId) (x : Meas) (d : ChannelId) :
    (s.setMeas c x).regionOf d = s.regionOf d := rfl
@[simp] theorem State.setMeas_recordOf (s : State) (c : ChannelId) (x : Meas) (d : ChannelId) :
    (s.setMeas c x).recordOf d = s.recordOf d := rfl
@[simp] theorem State.setMeas_modeOf (s : State) (c : ChannelId) (x : Meas) (k : LinkId) :
    (s.setMeas c x).modeOf k = s.modeOf k := rfl
@[simp] theorem State.setMeas_selectedOf (s : State) (c : ChannelId) (x : Meas) (d : ChannelId) :
    (s.setMeas c x).selectedOf d = s.selectedOf d := rfl
@[simp] theorem State.setCv_active (s : State) (l : LinkId) (x : Conv) : (s.setCv l x).active = s.active := rfl
@[simp] theorem State.setCv_record (s : State) (l : LinkId) (x : Conv) (q : ProgId) :
    (s.setCv l x).record q = s.record q := rfl
@[simp] theorem State.setCv_present (s : State) (l : LinkId) (x : Conv) (q : ProgId) :
    (s.setCv l x).present q = s.present q := rfl
@[simp] theorem State.setCv_regionOf (s : State) (l : LinkId) (x : Conv) (d : ChannelId) :
    (s.setCv l x).regionOf d = s.regionOf d := rfl
@[simp] theorem State.setCv_recordOf (s : State) (l : LinkId) (x : Conv) (d : ChannelId) :
    (s.setCv l x).recordOf d = s.recordOf d := rfl
@[simp] theorem State.setCv_modeOf (s : State) (l : LinkId) (x : Conv) (k : LinkId) :
    (s.setCv l x).modeOf k = s.modeOf k := rfl
@[simp] theorem State.setCv_selectedOf (s : State) (l : LinkId) (x : Conv) (d : ChannelId) :
    (s.setCv l x).selectedOf d = s.selectedOf d := rfl
@[simp] theorem State.setRx_active (s : State) (l : LinkId) (x : Receiver) : (s.setRx l x).active = s.active := rfl
@[simp] theorem State.setRx_record (s : State) (l : LinkId) (x : Receiver) (q : ProgId) :
    (s.setRx l x).record q = s.record q := rfl
@[simp] theorem State.setRx_present (s : State) (l : LinkId) (x : Receiver) (q : ProgId) :
    (s.setRx l x).present q = s.present q := rfl
@[simp] theorem State.setRx_regionOf (s : State) (l : LinkId) (x : Receiver) (d : ChannelId) :
    (s.setRx l x).regionOf d = s.regionOf d := rfl
@[simp] theorem State.setRx_recordOf (s : State) (l : LinkId) (x : Receiver) (d : ChannelId) :
    (s.setRx l x).recordOf d = s.recordOf d := rfl
@[simp] theorem State.setRx_modeOf (s : State) (l : LinkId) (x : Receiver) (k : LinkId) :
    (s.setRx l x).modeOf k = s.modeOf k := rfl
@[simp] theorem State.setRx_selectedOf (s : State) (l : LinkId) (x : Receiver) (d : ChannelId) :
    (s.setRx l x).selectedOf d = s.selectedOf d := rfl
@[simp] theorem State.setSource_active (s : State) (c : ChannelId) (x : SourceState) :
    (s.setSource c x).active = s.active := rfl
@[simp] theorem State.setSource_record (s : State) (c : ChannelId) (x : SourceState) (q : ProgId) :
    (s.setSource c x).record q = s.record q := rfl
@[simp] theorem State.setSource_present (s : State) (c : ChannelId) (x : SourceState) (q : ProgId) :
    (s.setSource c x).present q = s.present q := rfl
@[simp] theorem State.setSource_regionOf (s : State) (c : ChannelId) (x : SourceState) (d : ChannelId) :
    (s.setSource c x).regionOf d = s.regionOf d := rfl
@[simp] theorem State.setSource_recordOf (s : State) (c : ChannelId) (x : SourceState) (d : ChannelId) :
    (s.setSource c x).recordOf d = s.recordOf d := rfl
@[simp] theorem State.setSource_modeOf (s : State) (c : ChannelId) (x : SourceState) (k : LinkId) :
    (s.setSource c x).modeOf k = s.modeOf k := rfl
@[simp] theorem State.setRule_active (s : State) (r : RuleId) (x : Rule) : (s.setRule r x).active = s.active := rfl
@[simp] theorem State.setRule_record (s : State) (r : RuleId) (x : Rule) (q : ProgId) :
    (s.setRule r x).record q = s.record q := rfl
@[simp] theorem State.setRule_present (s : State) (r : RuleId) (x : Rule) (q : ProgId) :
    (s.setRule r x).present q = s.present q := rfl
@[simp] theorem State.setRule_regionOf (s : State) (r : RuleId) (x : Rule) (d : ChannelId) :
    (s.setRule r x).regionOf d = s.regionOf d := rfl
@[simp] theorem State.setRule_recordOf (s : State) (r : RuleId) (x : Rule) (d : ChannelId) :
    (s.setRule r x).recordOf d = s.recordOf d := rfl
@[simp] theorem State.setRule_modeOf (s : State) (r : RuleId) (x : Rule) (k : LinkId) :
    (s.setRule r x).modeOf k = s.modeOf k := rfl
@[simp] theorem State.setRule_selectedOf (s : State) (r : RuleId) (x : Rule) (d : ChannelId) :
    (s.setRule r x).selectedOf d = s.selectedOf d := rfl
@[simp] theorem State.setTb_active (s : State) (x : Timebase) : (s.setTb x).active = s.active := rfl
@[simp] theorem State.setTb_record (s : State) (x : Timebase) (q : ProgId) : (s.setTb x).record q = s.record q := rfl
@[simp] theorem State.setTb_present (s : State) (x : Timebase) (q : ProgId) :
    (s.setTb x).present q = s.present q := rfl
@[simp] theorem State.setTb_regionOf (s : State) (x : Timebase) (d : ChannelId) :
    (s.setTb x).regionOf d = s.regionOf d := rfl
@[simp] theorem State.setTb_recordOf (s : State) (x : Timebase) (d : ChannelId) :
    (s.setTb x).recordOf d = s.recordOf d := rfl
@[simp] theorem State.setTb_modeOf (s : State) (x : Timebase) (k : LinkId) : (s.setTb x).modeOf k = s.modeOf k := rfl
@[simp] theorem State.setTb_selectedOf (s : State) (x : Timebase) (d : ChannelId) :
    (s.setTb x).selectedOf d = s.selectedOf d := rfl
@[simp] theorem State.setPort_active (s : State) (x : Port) : (s.setPort x).active = s.active := rfl
@[simp] theorem State.setPort_record (s : State) (x : Port) (q : ProgId) : (s.setPort x).record q = s.record q := rfl
@[simp] theorem State.setPort_present (s : State) (x : Port) (q : ProgId) :
    (s.setPort x).present q = s.present q := rfl
@[simp] theorem State.setPort_regionOf (s : State) (x : Port) (d : ChannelId) :
    (s.setPort x).regionOf d = s.regionOf d := rfl
@[simp] theorem State.setPort_recordOf (s : State) (x : Port) (d : ChannelId) :
    (s.setPort x).recordOf d = s.recordOf d := rfl
@[simp] theorem State.setPort_modeOf (s : State) (x : Port) (k : LinkId) : (s.setPort x).modeOf k = s.modeOf k := rfl
@[simp] theorem State.setPort_selectedOf (s : State) (x : Port) (d : ChannelId) :
    (s.setPort x).selectedOf d = s.selectedOf d := rfl
@[simp] theorem State.setFrame_active (s : State) (x : Frame) : (s.setFrame x).active = s.active := rfl
@[simp] theorem State.setFrame_record (s : State) (x : Frame) (q : ProgId) :
    (s.setFrame x).record q = s.record q := rfl
@[simp] theorem State.setFrame_present (s : State) (x : Frame) (q : ProgId) :
    (s.setFrame x).present q = s.present q := rfl
@[simp] theorem State.setFrame_regionOf (s : State) (x : Frame) (d : ChannelId) :
    (s.setFrame x).regionOf d = s.regionOf d := rfl
@[simp] theorem State.setFrame_recordOf (s : State) (x : Frame) (d : ChannelId) :
    (s.setFrame x).recordOf d = s.recordOf d := rfl
@[simp] theorem State.setFrame_modeOf (s : State) (x : Frame) (k : LinkId) :
    (s.setFrame x).modeOf k = s.modeOf k := rfl
@[simp] theorem State.setFrame_selectedOf (s : State) (x : Frame) (d : ChannelId) :
    (s.setFrame x).selectedOf d = s.selectedOf d := rfl
@[simp] theorem State.setAlarm_active (s : State) (x : Alarm) : (s.setAlarm x).active = s.active := rfl
@[simp] theorem State.setAlarm_record (s : State) (x : Alarm) (q : ProgId) :
    (s.setAlarm x).record q = s.record q := rfl
@[simp] theorem State.setAlarm_present (s : State) (x : Alarm) (q : ProgId) :
    (s.setAlarm x).present q = s.present q := rfl
@[simp] theorem State.setAlarm_regionOf (s : State) (x : Alarm) (d : ChannelId) :
    (s.setAlarm x).regionOf d = s.regionOf d := rfl
@[simp] theorem State.setAlarm_recordOf (s : State) (x : Alarm) (d : ChannelId) :
    (s.setAlarm x).recordOf d = s.recordOf d := rfl
@[simp] theorem State.setAlarm_modeOf (s : State) (x : Alarm) (k : LinkId) :
    (s.setAlarm x).modeOf k = s.modeOf k := rfl
@[simp] theorem State.setAlarm_selectedOf (s : State) (x : Alarm) (d : ChannelId) :
    (s.setAlarm x).selectedOf d = s.selectedOf d := rfl

end Sys2Proof.Machine
end

