-- ==== Sys2Proof/Laws/Lines.lean ====
section
/-! SUPPORT. What the shared operations on lines, sources and gain queues can do. -/

namespace Sys2Proof.Machine

/-! ### Lines -/

/-- A target lies inside the region (R61). -/
theorem targetFor_le (dt : Option Nat) (latency : Nat) (region : Option Region) :
    (targetFor dt latency region).tgt ≤ regionLength region - 1 := by
  unfold targetFor
  split
  · simp
  · simp
  · simp only [regionLength]; split <;> [simp; (split <;> simp_all)]

/-- The target of a channel of a programme with a region: D_t less the latency, held within 0 and the region's last word
(R61). -/
theorem targetFor_some (d latency : Nat) (r : Region) :
    (targetFor (some d) latency (some r)).tgt = min (d - latency) (r.count * 1024 - 1) := by
  simp only [targetFor]; split
  · simp; omega
  · split <;> simp <;> omega

/-- One frame toward the target stays between the two (R64). -/
theorem stepToward_le {cur tgt n : Nat} (hc : cur ≤ n) (ht : tgt ≤ n) : stepToward cur tgt ≤ n := by
  unfold stepToward; split <;> [omega; (split <;> omega)]

/-- A recompute of class CUT takes the target and leaves the delay, the depth and the write pointer (R62, R67, R68). -/
theorem cutClass_frame (l : Line) (t : LineTarget) (b : Bool) :
    (cutClass l t b).tgt = t.tgt ∧ (cutClass l t b).short = t.short ∧ (cutClass l t b).clamped = t.clamped ∧
    (cutClass l t b).cur = l.cur ∧ (cutClass l t b).v = l.v ∧ (cutClass l t b).wptr = l.wptr := by
  unfold cutClass aimLine; split <;> [split; skip; skip; skip] <;> simp

/-- A recompute of class SLEW takes the target and leaves the delay, the depth, the write pointer and the fader (R62, R65,
R68). -/
theorem slewClass_frame (l : Line) (t : LineTarget) :
    (slewClass l t).tgt = t.tgt ∧ (slewClass l t).short = t.short ∧ (slewClass l t).clamped = t.clamped ∧
    (slewClass l t).cur = l.cur ∧ (slewClass l t).v = l.v ∧ (slewClass l t).wptr = l.wptr ∧ (slewClass l t).g = l.g := by
  unfold slewClass aimLine; split <;> [split; split; skip; skip] <;> simp

/-- A channel's target reads the tables, the sources and the converters' latencies alone (R61). -/
theorem lineTarget_eq {s t : State} (hT : t.tables = s.tables) (hS : t.sources = s.sources) (hC : t.cv = s.cv)
    (c : ChannelId) : t.lineTarget c = s.lineTarget c := by
  simp [State.lineTarget, State.recordOf, State.record, State.latencyOf, State.selectedOf, State.regionOf, State.active, hT,
    hS, hC]

/-! ### Sources -/

/-- A channel's source changed: the source state alone, and its line when the selected source changes (R23, R70). -/
theorem changeSource_cases (s : State) (c : ChannelId) (x : SourceState) :
    s.changeSource c x = s.setSource c x ∨ s.changeSource c x = (s.setSource c x).recomputeCut c true := by
  unfold State.changeSource; simp only; split <;> simp

theorem changeSource_sources (s : State) (c : ChannelId) (x : SourceState) :
    (s.changeSource c x).sources = s.sources.set c.val x := by
  rcases changeSource_cases s c x with h | h <;> rw [h] <;> simp [State.recomputeCut]

/-- A source change touches the sources and the lines alone. -/
theorem changeSource_frame (s : State) (c : ChannelId) (x : SourceState) :
    s.changeSource c x = { s with sources := (s.changeSource c x).sources, lines := (s.changeSource c x).lines } := by
  rcases changeSource_cases s c x with h | h <;> rw [h] <;> rfl

/-- A source change keeps every line's delay, depth and write pointer, and every other channel's line. -/
theorem changeSource_lines (s : State) (c d : ChannelId) (x : SourceState) :
    (s.changeSource c x).lines[d].cur = s.lines[d].cur ∧ (s.changeSource c x).lines[d].v = s.lines[d].v ∧
    (s.changeSource c x).lines[d].wptr = s.lines[d].wptr ∧ (d ≠ c → (s.changeSource c x).lines[d] = s.lines[d]) := by
  rcases changeSource_cases s c x with h | h <;> rw [h]
  · simp
  · by_cases hd : d = c
    · subst hd
      have hf := cutClass_frame s.lines[d] ((s.setSource d x).lineTarget d) true
      simpa [State.recomputeCut] using ⟨hf.2.2.2.1, hf.2.2.2.2.1, hf.2.2.2.2.2⟩
    · have : c.val ≠ d.val := fun e => hd (Fin.ext e.symm)
      simp [State.recomputeCut, this]

/-- A BACKUP action switches the channels of its list that can switch, and records exactly those (R24). -/
theorem applyBackup_frame (s : State) (cs : List ChannelId) :
    (s.applyBackup cs).1 = { s with sources := (s.applyBackup cs).1.sources, lines := (s.applyBackup cs).1.lines } := by
  have h : ∀ (cs : List ChannelId) (a : State × BitVec 32),
      (cs.foldl (fun (acc : State × BitVec 32) c =>
        if acc.1.canSwitch c then (acc.1.changeSource c .backup, insertMember acc.2 c) else acc) a).1 =
      { a.1 with
        sources := (cs.foldl (fun (acc : State × BitVec 32) c =>
          if acc.1.canSwitch c then (acc.1.changeSource c .backup, insertMember acc.2 c) else acc) a).1.sources,
        lines := (cs.foldl (fun (acc : State × BitVec 32) c =>
          if acc.1.canSwitch c then (acc.1.changeSource c .backup, insertMember acc.2 c) else acc) a).1.lines } := by
    intro cs
    induction cs with
    | nil => intro a; rfl
    | cons c cs ih =>
      intro a
      rw [List.foldl_cons, ih]
      split
      · rw [changeSource_frame a.1 c .backup]
      · rfl
  exact h cs (s, 0#32)

/-- A release touches the sources and the lines alone (R25). -/
theorem releaseChannel_frame (s : State) (c : ChannelId) :
    s.releaseChannel c = { s with sources := (s.releaseChannel c).sources, lines := (s.releaseChannel c).lines } := by
  unfold State.releaseChannel
  split
  · split
    · split <;> exact changeSource_frame _ _ _
    · exact changeSource_frame _ _ _
  · rfl

theorem releaseBackup_frame (s : State) (set : BitVec 32) :
    s.releaseBackup set = { s with sources := (s.releaseBackup set).sources, lines := (s.releaseBackup set).lines } := by
  refine forChannels_keeps (P := fun t => t = { s with sources := t.sources, lines := t.lines }) (fun t c ht => ?_) rfl
  split
  · rw [releaseChannel_frame t c]; rw [ht]
  · exact ht

/-- A report of an entry to LOCKED touches the sources and the lines alone (R26). -/
theorem lockReport_frame (s : State) (l : LinkId) :
    s.lockReport l = { s with sources := (s.lockReport l).sources, lines := (s.lockReport l).lines } := by
  refine forChannels_keeps (P := fun t => t = { s with sources := t.sources, lines := t.lines }) (fun t c ht => ?_) rfl
  split
  · rw [changeSource_frame t c .primary]; rw [ht]
  · exact ht

/-! ### Gain -/

/-- A clamped gain lies inside the limits of its record (R106). -/
theorem clampGain_mem (r : ProgRecord) (x : Int) : -(r.cutMax : Int) ≤ clampGain r x ∧ clampGain r x ≤ r.boostMax := by
  unfold clampGain clampInt; split <;> [omega; (split <;> omega)]

/-- The service removes entries from the head, and leaves G_tgt or a target that it has clamped (R103). -/
theorem serveEntries_cases (r : ProgRecord) (hfc : Instant) : ∀ (q : List GainEntry) (tgt : Int),
    (serveEntries r hfc q tgt).1 <:+ q ∧
    ((serveEntries r hfc q tgt).2 = tgt ∨ ∃ e ∈ q, (serveEntries r hfc q tgt).2 = clampGain r e.target)
  | [], tgt => by simp [serveEntries]
  | e :: q, tgt => by
    unfold serveEntries; split
    · obtain ⟨h1, h2⟩ := serveEntries_cases r hfc q (clampGain r e.target)
      refine ⟨h1.trans (List.suffix_cons e q), .inr ?_⟩
      rcases h2 with h2 | ⟨x, hx, h2⟩
      · exact ⟨e, List.mem_cons_self, h2⟩
      · exact ⟨x, List.mem_cons_of_mem e hx, h2⟩
    · exact ⟨List.suffix_refl _, .inl rfl⟩

/-- A decision adds one entry at most and never takes the queue above four; G_tgt, G_app and the reason set stand (R100 to
R102). -/
theorem decideGain_frame (r : ProgRecord) (l : Loud) (hfc : Instant) (la : Nat) (g : Gain) :
    (decideGain r l hfc la g).tgt = g.tgt ∧ (decideGain r l hfc la g).app = g.app ∧
    (decideGain r l hfc la g).reasons = g.reasons ∧ (decideGain r l hfc la g).fader = g.fader ∧
    (g.queue.length ≤ 4 → (decideGain r l hfc la g).queue.length ≤ 4) := by
  unfold decideGain enqueueGain
  split
  · simp
  · simp only
    split
    · simp
    · split
      · simp
      · split
        · next h => exact ⟨rfl, rfl, rfl, rfl, fun _ => by simp at h ⊢; omega⟩
        · exact ⟨rfl, rfl, rfl, rfl, fun h => by simp at h ⊢; omega⟩

end Sys2Proof.Machine
end

