-- ==== Sys2Proof/Laws/Port.lean ====
section
/-! SUPPORT. What the shared operations of the management port and of the alarm engine can do. -/

namespace Sys2Proof.Machine

/-! ### The executor -/

/-- Executing a command that is not the executor's to take now changes nothing; else the head command is taken and answered
(R158). -/
theorem execute_cases (s : State) (serves : Byte → Bool) (f : State → List Byte → State × List Byte) :
    s.execute serves f = s ∨ ∃ (m : Message) (rest : List Message), Safety.Ready s m rest m.code ∧ serves m.code = true ∧
      s.execute serves f = ((f (s.takeCommand rest) m.payload).1).answer m (f (s.takeCommand rest) m.payload).2 := by
  unfold State.execute
  split
  · exact .inl rfl
  · next m rest hm =>
    split
    · next h =>
      simp only [State.executorReady, Bool.and_eq_true, Option.isNone_iff_eq_none] at h
      exact .inr ⟨m, rest, ⟨hm, h.1.1, h.1.2, rfl⟩, h.2, rfl⟩
    · exact .inl rfl

/-- The head command that is ready is taken and answered (R158). -/
theorem execute_ready {s : State} {m : Message} {rest : List Message} {code : Byte} (h : Safety.Ready s m rest code)
    {serves : Byte → Bool} (hs : serves code = true) (f : State → List Byte → State × List Byte) :
    s.execute serves f = ((f (s.takeCommand rest) m.payload).1).answer m (f (s.takeCommand rest) m.payload).2 := by
  obtain ⟨h1, h2, h3, h4⟩ := h
  simp [State.execute, h1, State.executorReady, h2, h3, h4, hs]

/-- An answer touches the reply queue or the held reply alone (R158, R159). -/
theorem answer_frame (s : State) (m : Message) (payload : List Byte) :
    s.answer m payload = { s with
      port := { s.port with
        replies := (s.answer m payload).port.replies, holding := (s.answer m payload).port.holding } } := by
  unfold State.answer Port.placeReply
  split
  · rfl
  · split <;> rfl

/-- The reply queue never grows beyond eight by an answer. -/
theorem answer_replies_length (s : State) (m : Message) (payload : List Byte) (h : s.port.replies.length ≤ 8) :
    (s.answer m payload).port.replies.length ≤ 8 := by
  unfold State.answer Port.placeReply
  split
  · exact h
  · split
    · next h8 => simpa using h8
    · exact h

/-! ### Queues -/

/-- A notice joins the queue when it holds fewer than sixteen, and its sequence number is used either way (R137). -/
theorem pushNotice_cases (p : Port) (n : Notice) :
    (p.notices.length < 16 ∧
      p.pushNotice n = { p with notices := p.notices ++ [{ n with seq := p.seq }], seq := p.seq + 1#8 }) ∨
    (16 ≤ p.notices.length ∧
      p.pushNotice n = { p with noticesLost := countUp 255 p.noticesLost, seq := p.seq + 1#8 }) := by
  unfold Port.pushNotice
  split
  · next h => exact .inl ⟨h, rfl⟩
  · next h => exact .inr ⟨by omega, rfl⟩

/-- Making a notice touches the port alone (R136). -/
theorem makeNotice_frame (s : State) (r : RuleId) (x : RuleRecord) (e : NoticeEvent) (v : Int) :
    s.makeNotice r x e v = { s with port := (s.makeNotice r x e v).port } := rfl

/-- Routing a message touches the command queue, the relay queue, the reply queue and the overflow counts, and keeps each
queue within its capacity (R155 to R157). -/
theorem route_bounded (p : Port) (bs : List Byte)
    (h : p.relay.length ≤ 8 ∧ p.commands.length ≤ 4 ∧ p.replies.length ≤ 8 ∧ p.notices.length ≤ 16) :
    (p.route bs).relay.length ≤ 8 ∧ (p.route bs).commands.length ≤ 4 ∧ (p.route bs).replies.length ≤ 8 ∧
    (p.route bs).notices.length ≤ 16 := by
  have hc : ∀ (q : Port) (m : Message),
      (q.relay.length ≤ 8 ∧ q.commands.length ≤ 4 ∧ q.replies.length ≤ 8 ∧ q.notices.length ≤ 16) →
      (q.joinCommand m).relay.length ≤ 8 ∧ (q.joinCommand m).commands.length ≤ 4 ∧ (q.joinCommand m).replies.length ≤ 8 ∧
      (q.joinCommand m).notices.length ≤ 16 := by
    intro q m hq
    unfold Port.joinCommand
    split
    · next h4 => refine ⟨hq.1, ?_, hq.2.2⟩; simp; omega
    · refine ⟨hq.1, hq.2.1, ?_, hq.2.2.2⟩
      simp only
      split
      · next h8 => simp; omega
      · exact hq.2.2.1
  have hr : ∀ q : Port, (q.relay.length ≤ 8 ∧ q.commands.length ≤ 4 ∧ q.replies.length ≤ 8 ∧ q.notices.length ≤ 16) →
      (q.joinRelay bs).relay.length ≤ 8 ∧ (q.joinRelay bs).commands.length ≤ 4 ∧ (q.joinRelay bs).replies.length ≤ 8 ∧
      (q.joinRelay bs).notices.length ≤ 16 := by
    intro q hq
    unfold Port.joinRelay
    split
    · next h8 => refine ⟨?_, hq.2⟩; simp; omega
    · exact hq
  unfold Port.route
  simp only
  split
  · exact hr _ (hc _ _ h)
  · split
    · exact hc _ _ h
    · exact hr _ h

/-- The arbiter takes a head from one queue, or finds all three of its order empty (R160). -/
theorem serve_none {p : Port} : ∀ {qs : List Served}, p.serve qs = none → ∀ q ∈ qs, p.takeHead q = none
  | [], _, _, hq => by simp at hq
  | q :: qs, h, x, hx => by
    unfold Port.serve at h
    split at h
    · simp at h
    · next hn =>
      rcases List.mem_cons.1 hx with rfl | hm
      · exact hn
      · exact serve_none h x hm

/-! ### The alarm engine -/

/-- Evaluating one rule touches the alarm engine alone (R126 to R128). -/
theorem evaluateRule_frame (s : State) (r : RuleId) : s.evaluateRule r = { s with alarm := (s.evaluateRule r).alarm } := by
  unfold State.evaluateRule
  simp only
  repeat' split
  all_goals rfl

/-- Evaluating every rule touches the alarm engine alone (R122). -/
theorem evaluateRules_frame (s : State) : s.evaluateRules = { s with alarm := s.evaluateRules.alarm } := by
  refine forRules_keeps (P := fun t => t = { s with alarm := t.alarm }) (fun t r ht => ?_) rfl
  rw [evaluateRule_frame t r]; rw [ht]

/-- The due rule is the notice of a return. -/
def isReturn (d : DueRule) : Bool := d.kind == .returning

/-- Making the notices of return at the head of a list leaves the rest due, and touches nothing but that and the port (R136). -/
theorem makeReturns_frame (s : State) (ds : List DueRule) :
    s.makeReturns ds =
      { s with alarm := { s.alarm with due := ds.dropWhile isReturn }, port := (s.makeReturns ds).port } := by
  induction ds generalizing s with
  | nil => rfl
  | cons d rest ih =>
    unfold State.makeReturns
    split
    · next h =>
      have e : isReturn d = true := by simp [isReturn, h]
      rw [ih, List.dropWhile_cons_of_pos e]
      unfold State.takeDue
      rw [h]; rfl
    · next h =>
      have e : ¬ isReturn d = true := fun e => h (by simpa [isReturn] using e)
      rw [List.dropWhile_cons_of_neg e]; rfl

/-- The boundary's evaluation touches the alarm engine and the port alone (R122, R136). -/
theorem evaluateBoundary_frame (s : State) :
    s.evaluateBoundary = { s with alarm := s.evaluateBoundary.alarm, port := s.evaluateBoundary.port } := by
  unfold State.evaluateBoundary
  rw [makeReturns_frame]
  have h := evaluateRules_frame s
  generalize s.evaluateRules = t at h ⊢
  rw [h]

/-- The notice queue only grows by a notice made (R137). -/
theorem pushNotice_extends (p : Port) (n : Notice) : p.notices <+: (p.pushNotice n).notices := by
  rcases pushNotice_cases p n with ⟨_, h⟩ | ⟨_, h⟩ <;> simp [h]

end Sys2Proof.Machine
end

