-- ==== Sys2Proof/Laws/Blocks.lean ====
section
/-! SUPPORT. What the shared operations of the blocks can do, each said once as the fields of the state that it touches: an
operation answers the state it was given with those fields replaced, and every other field as it was. -/

namespace Sys2Proof.Machine

/-! ### Links and the port -/

/-- A converter sent to DARK touches the converters alone (R33). -/
theorem darken_frame (s : State) (l : LinkId) : s.darken l = { s with cv := (s.darken l).cv } := rfl

/-- A frame report touches the port alone (R18). -/
theorem report_frame (s : State) (l : LinkId) (r : Report) : s.report l r = { s with port := (s.report l r).port } := by
  unfold State.report; split <;> rfl

/-- A link that leaves FRAMED touches its converter and the port alone (R13, R16). -/
theorem leftFramed_frame (s : State) (l : LinkId) :
    s.leftFramed l = { s with cv := (s.leftFramed l).cv, port := (s.leftFramed l).port } := by
  unfold State.leftFramed
  rw [report_frame, darken_frame]

/-- A frame arrival touches the converters and the counter of free values alone (R32). -/
theorem arrive_frame (s : State) (l : LinkId) (x : SixteenSamples) :
    s.arrive l x = { s with cv := (s.arrive l x).cv, free := (s.arrive l x).free } := by
  unfold State.arrive; simp only; split <;> rfl

/-- A link frame touches receivers, converters, the port and the counter of free values alone (R15 to R18). -/
theorem takeFrame_frame (s : State) (l : LinkId) (f : LinkFrame) :
    s.takeFrame l f = { s with rx := (s.takeFrame l f).rx, cv := (s.takeFrame l f).cv, port := (s.takeFrame l f).port,
                               free := (s.takeFrame l f).free } := by
  unfold State.takeFrame State.alignmentFault State.goodFrame State.parityFault
  split
  · split
    · simp only
      split
      · rw [report_frame, arrive_frame]; rfl
      · rw [leftFramed_frame]; rfl
    · split <;> (try simp only) <;> rw [report_frame, arrive_frame] <;> rfl
  · rfl

/-! ### Converters -/

/-- The fields that a converter step can touch: converters, sources and lines (R26, R35, R43, R49, R71). -/
def sameButLink (s t : State) : Prop := t = { s with cv := t.cv, sources := t.sources, lines := t.lines }

theorem sameButLink_trans {s t u : State} (h : sameButLink s t) (h' : sameButLink t u) : sameButLink s u := by
  unfold sameButLink at *; rw [h']; rw [h]

/-- What a converter step leaves alone. -/
theorem sameButLink_eqs {s t : State} (h : sameButLink s t) :
    t.tb = s.tb ∧ t.rx = s.rx ∧ t.tables = s.tables ∧ t.store = s.store ∧ t.meas = s.meas ∧ t.weights = s.weights ∧
    t.loud = s.loud ∧ t.gain = s.gain ∧ t.alarm = s.alarm ∧ t.port = s.port ∧ t.frame = s.frame ∧ t.h0 = s.h0 ∧
    t.h1 = s.h1 ∧ t.free = s.free ∧ t.pending = s.pending := by
  unfold sameButLink at h; rw [h]; simp

theorem sameButLink_refl (s : State) : sameButLink s s := Eq.refl _

theorem setCv_sameButLink (s : State) (l : LinkId) (c : Conv) : sameButLink s (s.setCv l c) := rfl

/-- A new cut of a line touches the lines alone (R71). -/
theorem recomputeCut_sameButLink (s : State) (c : ChannelId) (b : Bool) : sameButLink s (s.recomputeCut c b) := by
  unfold State.recomputeCut; exact Eq.refl _

/-- A new latency touches the lines alone (R71). -/
theorem recomputeLink_frame (s : State) (l : LinkId) : sameButLink s (s.recomputeLink l) := by
  unfold State.recomputeLink
  refine forChannels_keeps (P := sameButLink s) (fun t c ht => ?_) (sameButLink_refl _)
  split
  · exact sameButLink_trans ht (recomputeCut_sameButLink _ _ _)
  · exact ht

theorem lockReport_sameButLink (s : State) (l : LinkId) : sameButLink s (s.lockReport l) := by
  unfold sameButLink; rw [lockReport_frame]

/-- An entry to LOCKED touches converters, sources and lines alone (R26, R35, R49). -/
theorem enterLocked_frame (s : State) (l : LinkId) (c : Conv) : sameButLink s (s.enterLocked l c) := by
  unfold State.enterLocked
  refine sameButLink_trans ?_ (lockReport_sameButLink _ _)
  split
  · exact setCv_sameButLink _ _ _
  · exact sameButLink_trans (setCv_sameButLink _ _ _) (recomputeLink_frame _ _)

/-- A measurement that ends touches converters, sources and lines alone (R35, R36). -/
theorem endMeasurement_frame (s : State) (l : LinkId) : sameButLink s (s.endMeasurement l) := by
  unfold State.endMeasurement
  dsimp only
  split
  · exact enterLocked_frame _ _ _
  · exact setCv_sameButLink _ _ _

/-- Each converter step touches converters, sources and lines alone (R33 to R36, R40, R43, R45, R48). -/
theorem converterSteps_frame (s : State) (l : LinkId) :
    sameButLink s (s.leaveDark l) ∧ sameButLink s (s.acquisitionEnd l) ∧ sameButLink s (s.unsupportedBlockEnd l) ∧
    sameButLink s (s.directAcquisitionEnd l) ∧ sameButLink s (s.servoUpdate l) ∧ sameButLink s (s.spliceJump l) ∧
    sameButLink s (s.spliceEnd l) := by
  unfold State.leaveDark State.acquisitionEnd State.unsupportedBlockEnd State.directAcquisitionEnd State.servoUpdate
    State.spliceJump State.spliceEnd
  refine ⟨?_, ?_, ?_, ?_, ?_, ?_, ?_⟩ <;> split
  · exact setCv_sameButLink _ _ _
  · exact sameButLink_refl _
  · exact endMeasurement_frame _ _
  · exact sameButLink_refl _
  · exact endMeasurement_frame _ _
  · exact sameButLink_refl _
  · exact enterLocked_frame _ _ _
  · exact sameButLink_refl _
  · exact setCv_sameButLink _ _ _
  · exact sameButLink_refl _
  · exact setCv_sameButLink _ _ _
  · exact sameButLink_refl _
  · exact enterLocked_frame _ _ _
  · exact sameButLink_refl _

/-- The converter steps that a house frame still owes touch converters, sources and lines alone (log entry 3). -/
theorem settleLink_frame (s : State) (l : LinkId) : sameButLink s (s.settleLink l) := by
  unfold State.settleLink
  exact sameButLink_trans (converterSteps_frame _ l).1 <| sameButLink_trans (converterSteps_frame _ l).2.1 <|
    sameButLink_trans (converterSteps_frame _ l).2.2.1 <| sameButLink_trans (converterSteps_frame _ l).2.2.2.1 <|
    sameButLink_trans (converterSteps_frame _ l).2.2.2.2.1 <| sameButLink_trans (converterSteps_frame _ l).2.2.2.2.2.1
      (converterSteps_frame _ l).2.2.2.2.2.2

/-! ### Lines and gain -/

/-- Each line step touches the lines alone (R64, R66, R69). -/
theorem lineSteps_frame (s : State) (c : ChannelId) :
    s.slewStep c = { s with lines := (s.slewStep c).lines } ∧ s.cutJump c = { s with lines := (s.cutJump c).lines } ∧
    s.cutEnd c = { s with lines := (s.cutEnd c).lines } := by
  refine ⟨?_, ?_, ?_⟩
  · unfold State.slewStep; split <;> rfl
  · unfold State.cutJump; split <;> rfl
  · unfold State.cutEnd; split <;> rfl

/-- A queue service and a ramp step touch the gain state alone (R103, R105). -/
theorem gainSteps_frame (s : State) (p : ProgId) :
    s.queueService p = { s with gain := (s.queueService p).gain } ∧ s.rampStep p = { s with gain := (s.rampStep p).gain } := by
  constructor
  · unfold State.queueService; split
    · rfl
    · split <;> rfl
  · unfold State.rampStep; split <;> rfl

/-- A rule's number added to or dropped from a reason set touches the gain state alone (R110). -/
theorem reasons_frame (s : State) (r : RuleId) (p : ProgId) :
    s.addReason r p = { s with gain := (s.addReason r p).gain } ∧
    s.dropReason r p = { s with gain := (s.dropReason r p).gain } := by
  constructor
  · unfold State.addReason; split <;> rfl
  · unfold State.dropReason; split <;> rfl

/-! ### Actions and rules -/

/-- A rule's action applied touches gain state, alarm engine, sources and lines alone (R130 to R132). -/
theorem applyAction_frame (s : State) (r : RuleId) (x : RuleRecord) :
    s.applyAction r x = { s with gain := (s.applyAction r x).gain, alarm := (s.applyAction r x).alarm,
                                 sources := (s.applyAction r x).sources, lines := (s.applyAction r x).lines } := by
  unfold State.applyAction
  split
  · rfl
  · simp only
    have h := foldl_keeps (P := fun t : State => t = { s with gain := t.gain }) (f := fun t p => t.addReason r p)
      (fun t p ht => by rw [(reasons_frame t r p).1]; rw [ht]) (s.namedProgs x) s rfl
    generalize (s.namedProgs x).foldl (fun t p => t.addReason r p) s = t at h ⊢
    rw [h]; rfl
  · simp only
    have h := applyBackup_frame s (s.aimedChannels x)
    generalize s.applyBackup (s.aimedChannels x) = t at h ⊢
    rw [h]; rfl

/-- A rule's actions released touch gain state, alarm engine, sources and lines alone (R133). -/
theorem releaseAction_frame (s : State) (r : RuleId) :
    s.releaseAction r = { s with gain := (s.releaseAction r).gain, alarm := (s.releaseAction r).alarm,
                                 sources := (s.releaseAction r).sources, lines := (s.releaseAction r).lines } := by
  unfold State.releaseAction
  simp only
  rw [releaseBackup_frame]
  have h := forProgs_keeps (P := fun t : State => t = { s with gain := t.gain })
    (f := fun t p => if hasMember s.alarm.rules[r].muted p then t.dropReason r p else t)
    (fun t p ht => by
      split
      · rw [(reasons_frame t r p).2]; rw [ht]
      · exact ht) (s := s) rfl
  generalize forProgs (fun t p => if hasMember s.alarm.rules[r].muted p then t.dropReason r p else t) s = t at h ⊢
  rw [h]; rfl

/-- The fields that a rule's change of state can touch: gain state, alarm engine, sources, lines and port (R128, R130). -/
def sameButRules (s t : State) : Prop :=
  t = { s with gain := t.gain, alarm := t.alarm, sources := t.sources, lines := t.lines, port := t.port }

theorem sameButRules_refl (s : State) : sameButRules s s := rfl

theorem sameButRules_trans {s t u : State} (h : sameButRules s t) (h' : sameButRules t u) : sameButRules s u := by
  unfold sameButRules at *; rw [h'] ; rw [h]

/-- What a rule's change of state leaves alone. -/
theorem sameButRules_eqs {s t : State} (h : sameButRules s t) :
    t.tb = s.tb ∧ t.rx = s.rx ∧ t.cv = s.cv ∧ t.tables = s.tables ∧ t.store = s.store ∧ t.meas = s.meas ∧
    t.weights = s.weights ∧ t.loud = s.loud ∧ t.frame = s.frame ∧ t.h0 = s.h0 ∧ t.h1 = s.h1 ∧ t.free = s.free ∧
    t.pending = s.pending := by
  unfold sameButRules at h; rw [h]; simp

/-- A raise (R130), a timer that runs out (R128) and a clearing change nothing but what rules change. -/
theorem ruleSteps_frame (s : State) (r : RuleId) (x : RuleRecord) (v : Int) :
    sameButRules s (s.raiseRule r x v) ∧ sameButRules s (s.clearRule r x v) ∧ sameButRules s (s.timerOutRule r x v) := by
  have hc : sameButRules s (s.clearRule r x v) := by
    unfold State.clearRule sameButRules
    rw [releaseAction_frame]; rfl
  refine ⟨?_, hc, ?_⟩
  · unfold State.raiseRule sameButRules
    rw [applyAction_frame]; rfl
  · unfold State.timerOutRule
    split
    · rfl
    · exact hc

/-- A due rule's outcome changes nothing but what rules change (R128, R130). -/
theorem takeDue_rules (s : State) (d : DueRule) : sameButRules s (s.takeDue d) := by
  unfold State.takeDue
  split
  · exact rfl
  · exact (ruleSteps_frame s d.rule _ d.value).1
  · exact (ruleSteps_frame s d.rule _ d.value).2.2

/-- Making notices of return changes nothing but what rules change (R136). -/
theorem makeReturns_rules (s : State) (ds : List DueRule) : sameButRules s (s.makeReturns ds) := by
  unfold sameButRules; rw [makeReturns_frame]

/-- ALARM RAISE and ALARM TIMER OUT take the first of the rules that are due, and leave the state as it is otherwise (R128,
R130). -/
theorem dueStep_cases (s : State) (r : RuleId) (k : DueKind) :
    s.dueStep r k = s ∨ ∃ (d : DueRule) (rest : List DueRule), s.alarm.due = d :: rest ∧ d.rule = r ∧ d.kind = k ∧
      s.dueStep r k = (s.takeDue d).makeReturns rest := by
  unfold State.dueStep
  split
  · exact .inl rfl
  · next d rest h =>
    split
    · next hd => exact .inr ⟨d, rest, h, hd.1, hd.2, rfl⟩
    · exact .inl rfl

/-- ALARM RAISE and ALARM TIMER OUT change nothing but what rules change (R128, R130). -/
theorem alarmSteps_frame (s : State) (r : RuleId) : sameButRules s (s.alarmRaise r) ∧ sameButRules s (s.alarmTimerOut r) := by
  have h : ∀ k, sameButRules s (s.dueStep r k) := by
    intro k
    rcases dueStep_cases s r k with e | ⟨d, rest, -, -, -, e⟩ <;> rw [e]
    · exact sameButRules_refl s
    · exact sameButRules_trans (takeDue_rules s d) (makeReturns_rules _ rest)
  exact ⟨h _, h _⟩

/-- Taking every rule that is due changes nothing but what rules change (R122). -/
theorem settleAlarms_rules (s : State) : sameButRules s s.settleAlarms :=
  foldl_keeps (P := sameButRules s) (fun _ d ht => sameButRules_trans ht (takeDue_rules _ d)) _ _ rfl

/-- With no rule due there is nothing to take. -/
theorem settleAlarms_nil {s : State} (h : s.alarm.due = []) : s.settleAlarms = s := by
  unfold State.settleAlarms State.setAlarm
  rw [h]
  cases s with
  | mk tb rx cv tables sources lines store meas weights loud gain alarm port frame h0 h1 free pending =>
    cases alarm; simp_all

/-- A record written or a rule disabled changes nothing but what rules change (R121). -/
theorem quietRecord_rules (s : State) (r : RuleId) (x : RuleRecord) : sameButRules s (s.quietRecord r x) := by
  unfold State.quietRecord
  simp only
  refine sameButRules_trans (settleAlarms_rules s) ?_
  split
  · exact (ruleSteps_frame _ r x _).2.1
  · rfl

theorem emptyAlarms_rules (s : State) :
    sameButRules s { s with alarm := { s.alarm with due := [] }, port := { s.port with notices := [] } } :=
  rfl

/-- The ALARMS domain reset changes nothing but what rules change (R138). -/
theorem resetAlarms_rules (s : State) : sameButRules s s.resetAlarms := by
  unfold State.resetAlarms
  refine sameButRules_trans (t := forRules State.silenceRule s) ?_ (emptyAlarms_rules _)
  refine forRules_keeps (P := sameButRules s) (fun t r ht => sameButRules_trans ht ?_) (sameButRules_refl _)
  unfold State.silenceRule sameButRules
  rw [releaseAction_frame]; rfl

/-! ### The take, the boundary and the house frame -/

/-- The swap and the answers of every block touch tables, frame marks, sources, alarm engine, loudness, gain and lines alone
(R146). -/
theorem swap_frame (s : State) :
    s.swap = { s with tables := swapTables s.tables, frame := s.swap.frame, sources := s.swap.sources, alarm := s.swap.alarm,
                      loud := s.swap.loud, gain := s.swap.gain, lines := s.swap.lines } := by
  unfold State.swap
  simp only
  refine forChannels_keeps (P := fun t => t = { s with
    tables := swapTables s.tables, frame := t.frame, sources := t.sources, alarm := t.alarm, loud := t.loud, gain := t.gain,
    lines := t.lines }) (fun t c ht => ?_) ?_
  · unfold State.swapLine; simp only
    split
    · rw [State.setLine, ht]
    · split
      · rw [State.recomputeCut, State.setLine, ht]
      · split
        · rw [State.recomputeSlew, State.setLine, ht]
        · exact ht
  · refine forProgs_keeps (P := fun t => t = { s with
      tables := swapTables s.tables, frame := t.frame, sources := t.sources, alarm := t.alarm, loud := t.loud, gain := t.gain,
      lines := t.lines }) (fun t p ht => ?_) ?_
    · unfold State.swapProgramme
      split
      · exact ht
      · rw [State.setLoud, State.setGain, ht]
      · rw [State.leaveMuted, State.setLoud, State.setGain, State.setAlarm, ht]
      · split
        · exact ht
        · simp only
          split
          · rw [State.setGain, ht]
          · rw [State.setLoud, State.setGain, ht]
    · refine forChannels_keeps (P := fun t => t = { s with
        tables := swapTables s.tables, frame := t.frame, sources := t.sources, alarm := t.alarm, loud := t.loud,
        gain := t.gain, lines := t.lines }) (fun t c ht => ?_) rfl
      unfold State.swapSource
      split
      · exact ht
      · rw [State.leaveSwitched, State.setSource, State.setFrame, State.setAlarm, ht]

/-- The measurement, loudness and decision work of a boundary touches timebase, frame marks, coefficients, records, loudness
and gain alone (R3, R79, R84, R86, R100). -/
theorem boundaryWork_frame (s : State) :
    s.boundaryWork = { s with tb := s.boundaryWork.tb, frame := s.boundaryWork.frame, weights := s.boundaryWork.weights,
                              meas := s.boundaryWork.meas, loud := s.boundaryWork.loud, gain := s.boundaryWork.gain } := by
  unfold State.boundaryWork
  refine forProgs_keeps (P := fun t => t = { s with
    tb := t.tb, frame := t.frame, weights := t.weights, meas := t.meas, loud := t.loud, gain := t.gain })
    (fun t p ht => ?_) ?_
  · unfold State.programmeBoundary
    split
    · exact ht
    · simp only; rw [State.setLoud, State.setGain, ht]
  · refine forChannels_keeps (P := fun t => t = { s with
      tb := t.tb, frame := t.frame, weights := t.weights, meas := t.meas, loud := t.loud, gain := t.gain })
      (fun t c ht => ?_) rfl
    rw [State.setMeas, ht]

/-- COPY BACK COMPLETE touches the tables and the frame's marks alone (R148). -/
theorem completeCopy_frame (s : State) :
    s.completeCopy = { s with tables := s.completeCopy.tables, frame := s.completeCopy.frame } := by
  unfold State.completeCopy; split <;> rfl

/-- A copy keeps the active bank, the marker and the tables that are not banked (R140, R148). -/
theorem copyNext_frame (t : Tables) :
    activeBank (copyNext t) = activeBank t ∧ (copyNext t).marker = t.marker ∧ (copyNext t).bankState = t.bankState ∧
    (copyNext t).copyPos = t.copyPos + 1 ∧ (copyNext t).filters = t.filters ∧ (copyNext t).ruleRecords = t.ruleRecords ∧
    (copyNext t).linkConfig = t.linkConfig ∧ (copyNext t).setSelect = t.setSelect ∧ (copyNext t).weighting = t.weighting := by
  unfold copyNext setStandbyBank activeBank
  split <;> simp

/-- The arbiter touches the port and the frame's marks alone (R160). -/
theorem messageBoundary_frame (s : State) :
    s.messageBoundary = { s with port := s.messageBoundary.port, frame := s.messageBoundary.frame } := by
  unfold State.messageBoundary
  split
  · split <;> rfl
  · rfl

/-- The audio of a house frame touches records, delay store, lines and the two outbound frames alone (R22, R29, R59, R82,
R109). -/
theorem formAudio_frame (s : State) :
    s.formAudio = { s with meas := s.formAudio.meas, store := s.formAudio.store, lines := s.formAudio.lines,
                           h0 := s.formAudio.h0, h1 := s.formAudio.h1 } := by
  unfold State.formAudio
  simp only
  have h := forChannels_keeps (P := fun t : State => t = { s with meas := t.meas, store := t.store, lines := t.lines })
    (f := State.accessChannel (Vector.ofFn fun c => s.outputClips c (s.channelLine c)))
    (fun t c ht => by unfold State.accessChannel; simp only; rw [State.setMeas, State.setLine, ht]) (s := s) rfl
  generalize forChannels (State.accessChannel (Vector.ofFn fun c => s.outputClips c (s.channelLine c))) s = t at h ⊢
  rw [h]

end Sys2Proof.Machine
end

