-- ==== Sys2Proof/Laws/Cells.lean ====
section
/-! SUPPORT. The sparse cells of the delay store and of the filter coefficients: every write keeps the canonical form, and the
byte fields of R183 spell what was put into them. -/

namespace Sys2Proof.Machine

variable {α : Type} [DecidableEq α] {z : α}

/-- A canonical list of cells: every cell holds a value other than `z`, in rising order. -/
theorem cellsWf_cons (a : Nat) (v : α) (m : Cells α) :
    cellsWf z ((a, v) :: m) = true ↔ v ≠ z ∧ (∀ c ∈ m.head?, a < c.1) ∧ cellsWf z m = true := by
  cases m with
  | nil => simp [cellsWf]
  | cons c rest => obtain ⟨b, w⟩ := c; simp [cellsWf, and_assoc]

/-- Putting a value other than `z` keeps the canonical form, and the first cell is the new one or the old first. -/
theorem putCell_wf {x : α} (hx : x ≠ z) (a : Nat) : ∀ m : Cells α, cellsWf z m = true →
    cellsWf z (putCell m a x) = true ∧
    ∀ k : Nat, k < a → (∀ c ∈ m.head?, k < c.1) → ∀ c ∈ (putCell m a x).head?, k < c.1
  | [], _ => by simp [putCell, hx, cellsWf]
  | (b, v) :: rest, h => by
    have hc := (cellsWf_cons b v rest).1 h
    have ih := putCell_wf hx a rest hc.2.2
    unfold putCell
    split
    · next hab => simp [cellsWf_cons, hx, hab] at *; exact ⟨hc, fun k hk _ => hk⟩
    · split
      · next _ hab =>
        subst hab
        exact ⟨(cellsWf_cons _ _ _).2 ⟨hx, hc.2⟩, fun k hk _ c hc' => by simp at hc'; subst hc'; exact hk⟩
      · next h1 h2 =>
        exact ⟨(cellsWf_cons _ _ _).2 ⟨hc.1, ih.2 b (by omega) hc.2.1, ih.1⟩,
          fun k _ hk c hc' => by simp at hc' hk; subst hc'; exact hk⟩

/-- Dropping a cell keeps the canonical form, and every bound below the first cell. -/
theorem dropCell_wf (a : Nat) : ∀ m : Cells α, cellsWf z m = true →
    cellsWf z (dropCell m a) = true ∧ ∀ k : Nat, (∀ c ∈ m.head?, k < c.1) → ∀ c ∈ (dropCell m a).head?, k < c.1
  | [], _ => by simp [dropCell, cellsWf]
  | (b, v) :: rest, h => by
    have hc := (cellsWf_cons b v rest).1 h
    have ih := dropCell_wf a rest hc.2.2
    unfold dropCell
    split
    · exact ⟨hc.2.2, fun k hk c hc' => by have := hc.2.1 c hc'; simp at hk; omega⟩
    · exact ⟨(cellsWf_cons _ _ _).2 ⟨hc.1, ih.2 b hc.2.1, ih.1⟩,
        fun k hk c hc' => by simp at hc' hk; subst hc'; exact hk⟩

/-- A write keeps the canonical form, so that equal contents are equal data. -/
theorem writeCell_wf (m : Cells α) (a : Nat) (x : α) (h : cellsWf z m = true) : cellsWf z (writeCell z m a x) = true := by
  unfold writeCell
  split
  · exact (dropCell_wf a m h).1
  · next hx => exact (putCell_wf hx a m h).1

/-- `k` bytes are `k` in number. -/
@[simp] theorem beBytes_length : ∀ k v : Nat, (beBytes k v).length = k
  | 0, _ => rfl
  | k + 1, v => by simp [beBytes, beBytes_length k v]

@[simp] theorem beSigned_length (k : Nat) (v : Int) : (beSigned k v).length = k := beBytes_length _ _

theorem fromBytes_foldl (a : Nat) : ∀ bs : List Byte,
    bs.foldl (fun a b => a * 256 + b.toNat) a = a * 256 ^ bs.length + fromBytes bs
  | [] => by simp [fromBytes]
  | b :: bs => by
    have h1 := fromBytes_foldl (a * 256 + b.toNat) bs
    have h2 := fromBytes_foldl b.toNat bs
    simp only [List.foldl_cons, fromBytes, List.length_cons, Nat.zero_mul, Nat.zero_add] at *
    rw [h1, h2]; ring

theorem fromBytes_cons (b : Byte) (bs : List Byte) : fromBytes (b :: bs) = b.toNat * 256 ^ bs.length + fromBytes bs := by
  have h := fromBytes_foldl b.toNat bs
  simpa [fromBytes] using h

/-- The bytes of a field spell the value it was given, modulo its range (R183). -/
theorem fromBytes_beBytes : ∀ k v : Nat, fromBytes (beBytes k v) = v % 256 ^ k
  | 0, v => by simp [beBytes, fromBytes, Nat.mod_one]
  | k + 1, v => by
    simp only [beBytes, fromBytes_cons, beBytes_length, fromBytes_beBytes k v, BitVec.toNat_ofNat]
    have h : 256 ^ (k + 1) = 256 ^ k * 256 := by ring
    rw [h, Nat.mod_mul, show (2 : Nat) ^ 8 = 256 from rfl]; ring

/-- A list of bytes spells a number below the range of its length. -/
theorem fromBytes_lt : ∀ bs : List Byte, fromBytes bs < 256 ^ bs.length
  | [] => by simp [fromBytes]
  | b :: bs => by
    have ih := fromBytes_lt bs
    have hb : b.toNat < 256 := b.isLt
    rw [fromBytes_cons, List.length_cons, pow_succ]
    nlinarith [Nat.pow_pos (n := bs.length) (show 0 < 256 by decide)]

end Sys2Proof.Machine
end

