-- ==== Sys2Proof/Laws/PerInstr.lean ====
section
/-! SUPPORT. Statements for all commands, made per command. FormChecked: a command is well formed exactly when every link frame
it carries has its 16 audio slots (section 11.2), so no other operand is checked or left unchecked. -/

namespace Sys2Proof.Laws.FormChecked

/-- Well-formedness checks the slots of the link frame that the command carries, and nothing else. -/
def Statement (i : Instr) : Prop := i.wellFormed = true ↔ ∀ (l : LinkId) (f : LinkFrame), i = .linkFrame l f → f.slots.length = 16

theorem hardwareReset (cause : ResetCause) (rate96 : Bool) (addr : BitVec 6) (mlk : LinkId) : Statement (.hardwareReset cause rate96 addr mlk) := ⟨fun _ _ _ e => (nomatch e), fun _ => rfl⟩
theorem houseFrame : Statement .houseFrame := ⟨fun _ _ _ e => (nomatch e), fun _ => rfl⟩
theorem refPulse (tick : Nat) : Statement (.refPulse tick) := ⟨fun _ _ _ e => (nomatch e), fun _ => rfl⟩
theorem expectedInstantReached : Statement .expectedInstantReached := ⟨fun _ _ _ e => (nomatch e), fun _ => rfl⟩
theorem acceptanceWindowClose : Statement .acceptanceWindowClose := ⟨fun _ _ _ e => (nomatch e), fun _ => rfl⟩
theorem pulsesLost : Statement .pulsesLost := ⟨fun _ _ _ e => (nomatch e), fun _ => rfl⟩
theorem goodCountComplete : Statement .goodCountComplete := ⟨fun _ _ _ e => (nomatch e), fun _ => rfl⟩
theorem refinementBlockComplete : Statement .refinementBlockComplete := ⟨fun _ _ _ e => (nomatch e), fun _ => rfl⟩
theorem sliceBoundary : Statement .sliceBoundary := ⟨fun _ _ _ e => (nomatch e), fun _ => rfl⟩
theorem lineTransition (l : LinkId) : Statement (.lineTransition l) := ⟨fun _ _ _ e => (nomatch e), fun _ => rfl⟩
theorem activityTimeout (l : LinkId) : Statement (.activityTimeout l) := ⟨fun _ _ _ e => (nomatch e), fun _ => rfl⟩
theorem alignmentWordFound (l : LinkId) (look : WordLook) : Statement (.alignmentWordFound l look) := ⟨fun _ _ _ e => (nomatch e), fun _ => rfl⟩
theorem linkFrame (l : LinkId) (f : LinkFrame) : Statement (.linkFrame l f) :=
  ⟨fun h _ _ e => by cases e; exact beq_iff_eq.1 h, fun h => beq_iff_eq.2 (h l f rfl)⟩
theorem assemblerTimeout : Statement .assemblerTimeout := ⟨fun _ _ _ e => (nomatch e), fun _ => rfl⟩
theorem leaveDark (l : LinkId) : Statement (.leaveDark l) := ⟨fun _ _ _ e => (nomatch e), fun _ => rfl⟩
theorem acquisitionEnd (l : LinkId) : Statement (.acquisitionEnd l) := ⟨fun _ _ _ e => (nomatch e), fun _ => rfl⟩
theorem unsupportedBlockEnd (l : LinkId) : Statement (.unsupportedBlockEnd l) := ⟨fun _ _ _ e => (nomatch e), fun _ => rfl⟩
theorem directAcquisitionEnd (l : LinkId) : Statement (.directAcquisitionEnd l) := ⟨fun _ _ _ e => (nomatch e), fun _ => rfl⟩
theorem servoUpdate (l : LinkId) : Statement (.servoUpdate l) := ⟨fun _ _ _ e => (nomatch e), fun _ => rfl⟩
theorem spliceJump (l : LinkId) : Statement (.spliceJump l) := ⟨fun _ _ _ e => (nomatch e), fun _ => rfl⟩
theorem spliceEnd (l : LinkId) : Statement (.spliceEnd l) := ⟨fun _ _ _ e => (nomatch e), fun _ => rfl⟩
theorem slewStep (c : ChannelId) : Statement (.slewStep c) := ⟨fun _ _ _ e => (nomatch e), fun _ => rfl⟩
theorem cutJump (c : ChannelId) : Statement (.cutJump c) := ⟨fun _ _ _ e => (nomatch e), fun _ => rfl⟩
theorem cutEnd (c : ChannelId) : Statement (.cutEnd c) := ⟨fun _ _ _ e => (nomatch e), fun _ => rfl⟩
theorem queueService (p : ProgId) : Statement (.queueService p) := ⟨fun _ _ _ e => (nomatch e), fun _ => rfl⟩
theorem rampStep (p : ProgId) : Statement (.rampStep p) := ⟨fun _ _ _ e => (nomatch e), fun _ => rfl⟩
theorem alarmRaise (r : RuleId) : Statement (.alarmRaise r) := ⟨fun _ _ _ e => (nomatch e), fun _ => rfl⟩
theorem alarmTimerOut (r : RuleId) : Statement (.alarmTimerOut r) := ⟨fun _ _ _ e => (nomatch e), fun _ => rfl⟩
theorem takeSwap : Statement .takeSwap := ⟨fun _ _ _ e => (nomatch e), fun _ => rfl⟩
theorem copyBackComplete : Statement .copyBackComplete := ⟨fun _ _ _ e => (nomatch e), fun _ => rfl⟩
theorem heldReplyPlaced : Statement .heldReplyPlaced := ⟨fun _ _ _ e => (nomatch e), fun _ => rfl⟩
theorem messageBoundary : Statement .messageBoundary := ⟨fun _ _ _ e => (nomatch e), fun _ => rfl⟩
theorem identify : Statement .identify := ⟨fun _ _ _ e => (nomatch e), fun _ => rfl⟩
theorem readStatus : Statement .readStatus := ⟨fun _ _ _ e => (nomatch e), fun _ => rfl⟩
theorem readLink : Statement .readLink := ⟨fun _ _ _ e => (nomatch e), fun _ => rfl⟩
theorem readProgramme : Statement .readProgramme := ⟨fun _ _ _ e => (nomatch e), fun _ => rfl⟩
theorem readSlice : Statement .readSlice := ⟨fun _ _ _ e => (nomatch e), fun _ => rfl⟩
theorem readEntries : Statement .readEntries := ⟨fun _ _ _ e => (nomatch e), fun _ => rfl⟩
theorem writeEntries : Statement .writeEntries := ⟨fun _ _ _ e => (nomatch e), fun _ => rfl⟩
theorem fillEntries : Statement .fillEntries := ⟨fun _ _ _ e => (nomatch e), fun _ => rfl⟩
theorem take : Statement .take := ⟨fun _ _ _ e => (nomatch e), fun _ => rfl⟩
theorem cancelTake : Statement .cancelTake := ⟨fun _ _ _ e => (nomatch e), fun _ => rfl⟩
theorem setDelay : Statement .setDelay := ⟨fun _ _ _ e => (nomatch e), fun _ => rfl⟩
theorem setTarget : Statement .setTarget := ⟨fun _ _ _ e => (nomatch e), fun _ => rfl⟩
theorem setTrim : Statement .setTrim := ⟨fun _ _ _ e => (nomatch e), fun _ => rfl⟩
theorem mute : Statement .mute := ⟨fun _ _ _ e => (nomatch e), fun _ => rfl⟩
theorem unmute : Statement .unmute := ⟨fun _ _ _ e => (nomatch e), fun _ => rfl⟩
theorem ackAlarm : Statement .ackAlarm := ⟨fun _ _ _ e => (nomatch e), fun _ => rfl⟩
theorem enableRule : Statement .enableRule := ⟨fun _ _ _ e => (nomatch e), fun _ => rfl⟩
theorem disableRule : Statement .disableRule := ⟨fun _ _ _ e => (nomatch e), fun _ => rfl⟩
theorem restorePrimary : Statement .restorePrimary := ⟨fun _ _ _ e => (nomatch e), fun _ => rfl⟩
theorem resetIntegrator : Statement .resetIntegrator := ⟨fun _ _ _ e => (nomatch e), fun _ => rfl⟩
theorem readContext : Statement .readContext := ⟨fun _ _ _ e => (nomatch e), fun _ => rfl⟩
theorem loadContext : Statement .loadContext := ⟨fun _ _ _ e => (nomatch e), fun _ => rfl⟩
theorem resetDomains : Statement .resetDomains := ⟨fun _ _ _ e => (nomatch e), fun _ => rfl⟩
theorem unknownCode : Statement .unknownCode := ⟨fun _ _ _ e => (nomatch e), fun _ => rfl⟩

end Sys2Proof.Laws.FormChecked
end

