-- ==== Sys2Proof/Laws/Words.lean ====
section
/-! SUPPORT. The words of the statements, met by the operations that they describe. -/

namespace Sys2Proof.Machine

/-! ### Lines -/

/-- A line aimed by R61 meets its table. -/
theorem lineTarget_aims (s : State) (c : ChannelId) (l : Line) : Safety.AimsAt s c (aimLine l (s.lineTarget c)) := by
  unfold Safety.AimsAt State.lineTarget targetFor
  generalize s.latencyOf c = n
  cases s.recordOf c with
  | none => simp [aimLine]
  | some r =>
    cases s.regionOf c with
    | none => simp [aimLine]
    | some g =>
      simp only [aimLine, Option.map_some]
      split
      · simp; omega
      · split <;> simp <;> omega

/-- What a line aims at reads the tables, the converters and the channel's own source state alone. -/
theorem aimsAt_congr {s t : State} (hT : t.tables = s.tables) (hC : t.cv = s.cv) (c : ChannelId)
    (hS : t.sources[c] = s.sources[c]) (l : Line) : Safety.AimsAt t c l ↔ Safety.AimsAt s c l := by
  unfold Safety.AimsAt
  rw [show t.recordOf c = s.recordOf c by simp [State.recordOf, State.record, State.active, hT],
    show t.regionOf c = s.regionOf c by simp [State.regionOf, State.active, hT],
    show t.latencyOf c = s.latencyOf c by
      have h : t.selectedOf c = s.selectedOf c := by simp only [State.selectedOf, State.active, hT, hS]
      simp only [State.latencyOf, h, hC]]

/-- A recompute of class CUT answers as R62, R63, R67, R68 and R70 say. -/
theorem cutClass_answers (s : State) (c : ChannelId) (l : Line) (b : Bool) :
    Safety.CutAnswer s c l (cutClass l (s.lineTarget c) b) b := by
  have h := fun k => lineTarget_aims s c k
  unfold Safety.CutAnswer cutClass
  cases hm : l.move <;> simp only
  · constructor
    · split
      · exact h { l with move := .cutFall, g := 64, slew := 0, jumpDue := false }
      · exact h l
    · split <;> rename_i hb <;> simp_all [Safety.falling, Safety.aimed, aimLine]
  · exact ⟨h { l with move := .cutFall, g := 64, slew := 0, jumpDue := false }, rfl⟩
  · exact ⟨h l, rfl⟩
  · exact ⟨h { l with move := .cutFall, jumpDue := false }, rfl⟩

/-- A recompute of class SLEW answers as R62, R63, R65 and R68 say. -/
theorem slewClass_answers (s : State) (c : ChannelId) (l : Line) :
    Safety.SlewAnswer s c l (slewClass l (s.lineTarget c)) := by
  have h := fun k => lineTarget_aims s c k
  unfold Safety.SlewAnswer slewClass
  cases hm : l.move <;> simp only
  · constructor
    · split
      · exact h { l with move := .slew, slew := 0 }
      · exact h l
    · split <;> rename_i hb <;> simp_all [Safety.aimed, aimLine]
  · constructor
    · split
      · exact h { l with move := .idle, slew := 0 }
      · exact h l
    · split <;> rename_i hb <;> simp_all [Safety.aimed, aimLine]
  · exact ⟨h l, rfl⟩
  · exact ⟨h l, rfl⟩

/-- A line set at once meets R58 and R76. -/
theorem setLineNow_sets (s : State) (c : ChannelId) (l : Line) :
    Safety.SetAtOnce s c l (setLineNow l (s.lineTarget c)) l.wptr ∧ Safety.SetAtOnce s c l (assignLine l (s.lineTarget c)) 0 :=
  ⟨⟨lineTarget_aims s c l, rfl⟩, ⟨lineTarget_aims s c l, rfl⟩⟩

/-- A change of source state is followed by the channel's own line alone (R23, R70). -/
theorem changeSource_follows (s : State) (c : ChannelId) (x : SourceState) (d : ChannelId) :
    Safety.LineFollows s (s.changeSource c x) d := by
  have hT : (s.changeSource c x).tables = s.tables := by rw [changeSource_frame]
  have hC : (s.changeSource c x).cv = s.cv := by rw [changeSource_frame]
  have hS := changeSource_sources s c x
  by_cases hd : d = c
  · subst hd
    have hsel : (s.changeSource d x).selectedOf d = (s.setSource d x).selectedOf d := by
      simp only [State.selectedOf, State.active, hT, hS]; rfl
    have hcut : (s.setSource d x).selectedOf d ≠ s.selectedOf d →
        s.changeSource d x = (s.setSource d x).recomputeCut d true := by
      intro h; unfold State.changeSource; simp only [h, if_false]
    constructor
    · intro h
      rw [hsel] at h
      have h2 := cutClass_answers (s.setSource d x) d s.lines[d] true
      have hl : (s.changeSource d x).lines[d] = cutClass s.lines[d] ((s.setSource d x).lineTarget d) true := by
        rw [hcut h]; simp [State.recomputeCut, State.setLine, State.setSource]
      rw [hl]
      refine ⟨?_, h2.2⟩
      rw [aimsAt_congr (s := s.setSource d x) (by rw [hT]; rfl) (by rw [hC]; rfl) d (by rw [hS]; rfl)]
      exact h2.1
    · intro h
      rw [hsel] at h
      have : s.changeSource d x = s.setSource d x := by unfold State.changeSource; simp only [h, if_true]
      rw [this]; rfl
  · have hv : c.val ≠ d.val := fun e => hd (Fin.ext e.symm)
    have hs : (s.changeSource c x).sources[d] = s.sources[d] := by rw [hS]; simp [hv]
    have hl := (changeSource_lines s c d x).2.2.2 hd
    exact ⟨fun h => absurd (by simp only [State.selectedOf, State.active, hT, hs]) h, fun _ => hl⟩

/-- Two states that agree on a channel's source state and line, the tables and the converters follow alike. -/
theorem lineFollows_congr {s s' t t' : State} {c : ChannelId} (hs : s.sources[c] = s'.sources[c] ∧ s.lines[c] = s'.lines[c])
    (ht : t.sources[c] = t'.sources[c] ∧ t.lines[c] = t'.lines[c]) (hT : s.tables = s'.tables)
    (hT' : t.tables = t'.tables) (hC : t.cv = t'.cv) (h : Safety.LineFollows s' t' c) : Safety.LineFollows s t c := by
  have e : s.selectedOf c = s'.selectedOf c := by simp only [State.selectedOf, State.active, hT, hs.1]
  have e' : t.selectedOf c = t'.selectedOf c := by simp only [State.selectedOf, State.active, hT', ht.1]
  unfold Safety.LineFollows
  rw [e, e', hs.2, ht.2]
  refine ⟨fun hne => ?_, h.2⟩
  have h2 := h.1 hne
  exact ⟨(aimsAt_congr hT' hC c ht.1 _).2 h2.1, h2.2⟩

/-- Where every turn changes its own channel's source state at most, every line follows its source (R23, R70). -/
theorem forChannels_follows {f : State → ChannelId → State} (hf : ∀ t c, f t c = t ∨ ∃ x, f t c = t.changeSource c x)
    (s : State) (c : ChannelId) :
    Safety.LineFollows s (forChannels f s) c ∧
    ∃ t : State, t = { s with sources := t.sources, lines := t.lines } ∧ t.sources[c] = s.sources[c] ∧
      (forChannels f s).sources[c] = (f t c).sources[c] := by
  have hP : ∀ (t : State) (i : ChannelId), t = { s with sources := t.sources, lines := t.lines } →
      f t i = { s with sources := (f t i).sources, lines := (f t i).lines } := by
    intro t i ht
    rcases hf t i with e | ⟨x, e⟩ <;> rw [e]
    · exact ht
    · rw [changeSource_frame t i x]; rw [ht]
  have hF := forChannels_keeps (P := fun t => t = { s with sources := t.sources, lines := t.lines }) (s := s) hP rfl
  have hv : ∀ (t : State) (i j : ChannelId), j ≠ i →
      ((f t i).sources[j], (f t i).lines[j]) = (t.sources[j], t.lines[j]) := by
    intro t i j hne
    have hv : i.val ≠ j.val := fun e => hne (Fin.ext e.symm)
    rcases hf t i with e | ⟨x, e⟩ <;> rw [e]
    rw [(changeSource_lines t i j x).2.2.2 hne, changeSource_sources]; simp [hv]
  obtain ⟨t, ht, h1, h2⟩ := forChannels_item (view := fun t c => (t.sources[c], t.lines[c])) hv hP (s := s) rfl c
  have h1 := Prod.mk.injEq .. ▸ h1
  have h2 := Prod.mk.injEq .. ▸ h2
  refine ⟨?_, t, ht, h1.1, h2.1⟩
  have hself : Safety.LineFollows t (f t c) c := by
    rcases hf t c with e | ⟨x, e⟩ <;> rw [e]
    · exact ⟨fun h => absurd rfl h, fun _ => rfl⟩
    · exact changeSource_follows t c x c
  refine lineFollows_congr (s' := t) (t' := f t c) ⟨h1.1.symm, h1.2.symm⟩ h2 (by rw [ht]) ?_ ?_ hself
  · rw [hF, hP t c ht]
  · rw [hF, hP t c ht]

/-- A release sends each channel of the set where its revert policy says, and every line follows (R25, R70). -/
theorem releaseBackup_released (s : State) (set : BitVec 32) (c : ChannelId) :
    (s.releaseBackup set).sources[c] = (if hasMember set c then Safety.revertedSource s c else s.sources[c]) ∧
    Safety.LineFollows s (s.releaseBackup set) c := by
  have hf : ∀ (t : State) (c : ChannelId), (if hasMember set c then t.releaseChannel c else t) = t ∨
      ∃ x, (if hasMember set c then t.releaseChannel c else t) = t.changeSource c x := by
    intro t c
    unfold State.releaseChannel
    split
    · split
      · refine .inr ?_
        split
        · split <;> exact ⟨_, rfl⟩
        · exact ⟨_, rfl⟩
      · exact .inl rfl
    · exact .inl rfl
  obtain ⟨hl, t, ht, hs, h⟩ := forChannels_follows hf s c
  refine ⟨?_, hl⟩
  rw [State.releaseBackup, h]
  split
  · have hA : t.active = s.active := by rw [ht]; rfl
    have hC : t.cv = s.cv := by rw [ht]
    unfold State.releaseChannel Safety.revertedSource
    rw [hA, hC, hs]
    generalize s.active.slotMap[c] = e
    by_cases hb : s.sources[c] = .backup ∧ e.manual = false
    · rw [if_pos hb, if_pos (by simp [hb.1, hb.2])]
      cases e.primary with
      | none => simp [changeSource_sources]
      | some src => simp only; split <;> simp [changeSource_sources]
    · rw [if_neg hb, if_neg (by simpa using hb)]
      exact hs
  · exact hs

/-- A rule's actions released: its number leaves the reasons that it holds, its channels go back, the lines follow (R133). -/
theorem releaseAction_released (s : State) (r : RuleId) : Safety.Released s (s.releaseAction r) (fun q => q = r) := by
  unfold State.releaseAction
  simp only
  have hk := forProgs_keeps (P := fun t : State => t = { s with gain := t.gain })
    (f := fun t p => if hasMember s.alarm.rules[r].muted p then t.dropReason r p else t)
    (fun t p ht => by
      split
      · rw [(reasons_frame t r p).2]; rw [ht]
      · exact ht) (s := s) rfl
  have hi : ∀ p : ProgId, (forProgs (fun t p => if hasMember s.alarm.rules[r].muted p then t.dropReason r p else t) s).gain[p] =
      if hasMember s.alarm.rules[r].muted p = true ∧ s.record p ≠ none then
        { s.gain[p] with reasons := eraseMember s.gain[p].reasons r } else s.gain[p] := by
    intro p
    obtain ⟨t, ht, h1, h2⟩ := forProgs_item (view := fun t p => t.gain[p]) (P := fun t : State => t = { s with gain := t.gain })
      (f := fun t p => if hasMember s.alarm.rules[r].muted p then t.dropReason r p else t)
      (fun t i j hne => by
        have : i.val ≠ j.val := fun e => hne (Fin.ext e.symm)
        split
        · unfold State.dropReason; split <;> simp [this]
        · rfl)
      (fun t p ht => by
        split
        · rw [(reasons_frame t r p).2]; rw [ht]
        · exact ht) (s := s) rfl p
    rw [h2]
    have hr : t.record p = s.record p := by rw [ht]; rfl
    cases hasMember s.alarm.rules[r].muted p
    · simp [h1]
    · unfold State.dropReason State.present
      rw [hr]
      cases s.record p <;> simp [h1]
  generalize forProgs (fun t p => if hasMember s.alarm.rules[r].muted p then t.dropReason r p else t) s = t at hk hi ⊢
  have hb := releaseBackup_frame (t.setRule r { t.alarm.rules[r] with muted := 0#8, switched := 0#32 }) s.alarm.rules[r].switched
  have hc := releaseBackup_released (t.setRule r { t.alarm.rules[r] with muted := 0#8, switched := 0#32 }) s.alarm.rules[r].switched
  generalize (t.setRule r { t.alarm.rules[r] with muted := 0#8, switched := 0#32 }).releaseBackup s.alarm.rules[r].switched = u at hb hc ⊢
  have hS : ∀ c : ChannelId, t.sources[c] = s.sources[c] := fun c => by rw [hk]
  have hL : ∀ c : ChannelId, t.lines[c] = s.lines[c] := fun c => by rw [hk]
  have hT : t.tables = s.tables := by rw [hk]
  have hV : t.cv = s.cv := by rw [hk]
  have hg : ∀ p : ProgId, u.gain[p] = t.gain[p] := fun p => by rw [hb]; rfl
  refine ⟨fun p => ?_, fun c => ?_⟩
  · rw [hg p, hi p]
    split
    · rename_i h
      refine ⟨rfl, fun q => ?_⟩
      simp only [hasMember_erase, Bool.and_eq_true, decide_eq_true_eq]
      constructor
      · rintro ⟨h1, h2⟩; exact ⟨h1, fun h3 => h2 h3.1⟩
      · rintro ⟨h1, h2⟩; exact ⟨h1, fun h3 => h2 ⟨h3, h3 ▸ h.1, h.2⟩⟩
    · rename_i h
      refine ⟨rfl, fun q => ⟨fun h1 => ⟨h1, fun h3 => h ⟨h3.1 ▸ h3.2.1, h3.2.2⟩⟩, fun h1 => h1.1⟩⟩
  · obtain ⟨h1, h2⟩ := hc c
    have hrev : Safety.revertedSource (t.setRule r { t.alarm.rules[r] with muted := 0#8, switched := 0#32 }) c =
        Safety.revertedSource s c := by
      unfold Safety.revertedSource
      simp only [State.active, State.setRule, hT, hV, hS c]
      rfl
    refine ⟨?_, ?_, lineFollows_congr ⟨(hS c).symm, (hL c).symm⟩ ⟨rfl, rfl⟩ hT.symm rfl rfl h2⟩
    · rintro ⟨q, rfl, hq⟩
      rw [h1, hq, if_pos rfl, hrev]
    · intro hn
      have : hasMember s.alarm.rules[r].switched c = false := by
        cases hq : hasMember s.alarm.rules[r].switched c
        · rfl
        · exact absurd ⟨r, rfl, hq⟩ hn
      rw [h1, this]
      exact hS c

/-! ### Notices -/

/-- The value of a notice is that of the table of R136. -/
theorem noticeValue_reads (s : State) (e : RuleRecord) : s.noticeValue e = Safety.valueRead s e := by
  unfold State.noticeValue Safety.valueRead subjectChannel subjectProg subjectLink
  have hl : (s.windowLevel (Fin.ofNat 8 e.subject)).getD noneValue =
      (match s.record (Fin.ofNat 8 e.subject), s.loud[(Fin.ofNat 8 e.subject : ProgId)].window with
        | some r, some w => w.raw + r.offset
        | _, _ => -2147483648) := by
    unfold State.windowLevel noneValue
    generalize s.record (Fin.ofNat 8 e.subject) = a
    generalize s.loud[(Fin.ofNat 8 e.subject : ProgId)].window = b
    cases a <;> cases b <;> rfl
  cases e.kind
  case loudnessHigh => exact hl
  case loudnessLow => exact hl
  case link =>
    simp only
    cases s.cv[(Fin.ofNat 4 e.subject : LinkId)].state <;> rfl
  case ratioLimit =>
    simp only [measuredRate, roundDiv, houseRate]
    generalize s.cv[(Fin.ofNat 4 e.subject : LinkId)] = v
    generalize s.modeOf (Fin.ofNat 4 e.subject) = m
    cases s.tb.rate96 <;> cases m <;> cases hs : v.state <;> simp <;> omega
  case delay =>
    simp only [State.delayFlags, State.delayFlag]
    cases s.record (Fin.ofNat 8 e.subject) <;> rfl
  case reference =>
    simp only
    cases s.tb.ref <;> rfl
  all_goals rfl

/-- A notice made of a rule's record joins the queue or is lost and counted (R136, R137). -/
theorem makeNotice_notes (s : State) (r : RuleId) (event : NoticeEvent) (value : Int) :
    s.makeNotice r s.tables.ruleRecords[r] event value = s.setPort (Safety.noted s s.port r event value) := by
  unfold State.makeNotice Safety.noted Port.pushNotice countUp
  congr 1
  simp only
  split
  · rfl
  · congr 1; split <;> omega

/-- The notices of return at the head of a list of due rules are made, and the rest stays due (R136). -/
theorem makeReturns_notes (ds : List DueRule) : ∀ s : State, s.makeReturns ds =
    { s with alarm := { s.alarm with due := Safety.stillDue ds }, port := Safety.returnsNoted s s.port ds } := by
  induction ds with
  | nil => intro s; rfl
  | cons d ds ih =>
    intro s
    unfold State.makeReturns Safety.stillDue Safety.returnsNoted
    cases hk : d.kind <;> simp only [hk, List.takeWhile_cons, List.dropWhile_cons]
    · rfl
    · rfl
    · rw [ih]
      have h : s.takeDue d = s.setPort (Safety.noted s s.port d.rule .raised d.value) := by
        unfold State.takeDue; rw [hk]; exact makeNotice_notes s d.rule .raised d.value
      rw [h]; rfl

/-! ### Actions -/

/-- A channel's selected source lies on a link (R22). -/
theorem selectsLink_iff (s : State) (c : ChannelId) (l : LinkId) : s.selectsLink c l = true ↔ Safety.SelectsOn s c l := by
  unfold State.selectsLink Safety.SelectsOn
  cases s.selectedOf c <;> simp

/-- The programme of a channel is the lowest-numbered present one that lists it (R131). -/
theorem programmeOf_iff (s : State) (c : ChannelId) (p : ProgId) :
    programmeOf s.active c = some p ↔ Safety.Lists s p c ∧ ∀ q : ProgId, q < p → ¬ Safety.Lists s q c := by
  have hl : ∀ q : ProgId, Safety.Lists s q c ↔ (match s.active.programmes[q] with
      | some r => r.lists c
      | none => false) = true := by
    intro q
    unfold Safety.Lists State.record
    cases s.active.programmes[q] <;> simp
  unfold programmeOf allProgs
  rw [List.find?_eq_some_iff_getElem]
  constructor
  · rintro ⟨h1, i, hi, he, hn⟩
    have hip : i = p.val := by
      have := congrArg Fin.val he; simpa using this
    refine ⟨(hl p).2 h1, fun q hq => ?_⟩
    have := hn q.val (by subst hip; exact hq)
    rw [hl q]
    simp only [List.getElem_finRange, Bool.not_eq_true'] at this
    exact fun h => Bool.false_ne_true (this.symm.trans h)
  · rintro ⟨h1, h2⟩
    refine ⟨(hl p).1 h1, p.val, by simp, by simp, fun j hj => ?_⟩
    have := h2 ⟨j, by omega⟩ hj
    rw [hl] at this
    simp only [List.getElem_finRange, Bool.not_eq_true']
    exact Bool.eq_false_iff.2 this

/-- The programmes that a MUTE action names are those of the table of R131. -/
theorem namedProgs_iff (s : State) (e : RuleRecord) (p : ProgId) : p ∈ s.namedProgs e ↔ Safety.Names s e p := by
  unfold State.namedProgs Safety.Names subjectChannel subjectProg subjectLink
  have hc : ∀ c : ChannelId, p ∈ (programmeOf s.active c).toList ↔
      Safety.Lists s p c ∧ ∀ q : ProgId, q < p → ¬ Safety.Lists s q c := by
    intro c
    rw [← programmeOf_iff]
    cases programmeOf s.active c <;> simp [eq_comm]
  have hp : ∀ q : ProgId, p ∈ [q].filter s.present ↔ p = q ∧ s.record p ≠ none := by
    intro q
    simp only [List.mem_filter, List.mem_singleton, State.present]
    constructor <;> rintro ⟨rfl, h⟩ <;> refine ⟨rfl, ?_⟩ <;> cases hr : s.record p <;> simp_all
  have hf : ∀ l : LinkId, p ∈ allProgs.filter (s.feeds l) ↔
      ∃ (r : ProgRecord) (m : Member), s.record p = some r ∧ m ∈ r.members ∧ Safety.SelectsOn s m.channel l := by
    intro l
    simp only [List.mem_filter, allProgs, List.mem_finRange, true_and, State.feeds]
    cases s.record p with
    | none => simp
    | some r =>
      simp only [List.any_eq_true, Option.some.injEq]
      constructor
      · rintro ⟨m, hm, h⟩; exact ⟨r, m, rfl, hm, (selectsLink_iff s _ l).1 h⟩
      · rintro ⟨r', m, rfl, hm, h⟩; exact ⟨m, hm, (selectsLink_iff s _ l).2 h⟩
  cases e.kind <;> simp only <;> first | exact hc _ | exact hp _ | exact hf _ | skip
  simp only [List.mem_filter, allProgs, List.mem_finRange, true_and, State.present]
  cases s.record p <;> simp

/-- The channels that a BACKUP action aims at are those of the table of R132. -/
theorem aimedChannels_iff (s : State) (e : RuleRecord) (c : ChannelId) : c ∈ s.aimedChannels e ↔ Safety.Aims s e c := by
  unfold State.aimedChannels Safety.Aims subjectChannel subjectProg subjectLink
  have hm : ∀ p : ProgId, c ∈ s.membersOf p ↔ Safety.Lists s p c := by
    intro p
    unfold State.membersOf Safety.Lists ProgRecord.lists
    cases s.record p with
    | none => simp
    | some r => simp
  have hl : ∀ l : LinkId, c ∈ allChannels.filter (s.primaryOn l) ↔ Safety.primaryLink s c l := by
    intro l
    simp only [List.mem_filter, allChannels, List.mem_finRange, true_and, State.primaryOn, Safety.primaryLink]
    cases s.active.slotMap[c].primary <;> simp
  cases e.kind <;> simp only <;> first | exact hm _ | exact hl _ | skip
  all_goals simp [allChannels]

/-- A channel can be switched under the three conditions of R24. -/
theorem canSwitch_iff (s : State) (c : ChannelId) : s.canSwitch c = true ↔ Safety.Switchable s c := by
  unfold State.canSwitch Safety.Switchable State.linkRuns Safety.Runs
  cases s.active.slotMap[c].backup <;> simp

end Sys2Proof.Machine
end

