-- ==== Sys2Proof/Tests/Slice0.lean ====
section
/-! SUPPORT. Small tests from the spec's worked figures, and a witness for every hypothesis of the statements: a concrete state and
operands that meet it, at a boundary value where the clause has one. -/

namespace Sys2Proof.Tests

set_option Elab.async false

open Sys2Proof.Machine

/-! ### Helpers -/

/-- A programme record with one member, C0 at weight 16. -/
def record0 : ProgRecord :=
  { members := [{ channel := 0, weight := 16 }], target := -230, mode := .short, strength := 8, deadband := 2,
    boostMax := 60, cutMax := 120, interval := 5, trim := 0, dt := 100, moveMode := .slew, slewInterval := 16, offset := 0,
    absGate := -600, gateDepth := 200 }

/-- A bank with C0 from slot 0 of Link A, backed up on Link B, a region of one page, and P0 on C0. -/
def bank0 : Routing :=
  { resetRouting with
    slotMap := resetRouting.slotMap.set 0
      { primary := some { link := 0, slot := 0 }, backup := some { link := 1, slot := 0 }, manual := false }
    outputMap := resetRouting.outputMap.set 1 (some 0)
    programmes := resetRouting.programmes.set 0 (some record0)
    regions := resetRouting.regions.set 0 (some { base := 0, count := 1 }) }

/-- The state after reset with this bank active, and an empty one in standby. -/
def on : State := { State.reset with tables := { State.reset.tables with bank0 := bank0 } }

def withTb (f : Timebase → Timebase) : State := { State.reset with tb := f State.reset.tb }
def withRx (f : Receiver → Receiver) : State := State.reset.setRx 0 (f State.reset.rx[0])
def withCv (f : Conv → Conv) : State := on.setCv 0 (f on.cv[0])
def withLine (f : Line → Line) : State := on.setLine 0 (f on.lines[0])
def withGain (f : Gain → Gain) : State := on.setGain 0 (f on.gain[0])
def withRule (f : Rule → Rule) : State := on.setRule 0 (f on.alarm.rules[0])
def withTables (f : Tables → Tables) (s : State) : State := { s with tables := f s.tables }
def withPort (f : Port → Port) : State := { State.reset with port := f State.reset.port }

/-- Link A in a mode. -/
def inMode (x : LinkMode) (t : Tables) : Tables := { t with linkConfig := t.linkConfig.set 0 { mode := x, gp := 12, gi := 18 } }

/-- A command message to unit 0. -/
def command (code : Byte) (payload : List Byte) : Message :=
  { addr := 0#6, kind := .command, tag := 9#8, code := code, payload := payload }

/-- The state in a frame that began with one command in the command queue. -/
def asked (s : State) (code : Byte) (payload : List Byte) : State :=
  { s with port := { s.port with commands := [command code payload] }, frame := { s.frame with executorTurn := true } }

theorem asked_ready (s : State) (code : Byte) (payload : List Byte) (h : s.port.holding = none) :
    Safety.Ready (asked s code payload) (command code payload) [] code := ⟨rfl, rfl, h, rfl⟩

/-- A good link frame with sample 5 in slot 0. -/
def frame5 : LinkFrame :=
  setParity
    { align := alignmentWord,
      slots := { sample := 5#24, valid := true } :: List.replicate 15 { sample := 0#24, valid := false },
      start := true, present0 := true, byte0 := 0#8, present1 := false, byte1 := 0#8, maj := false, min := false,
      ntc := false, parity := false }

/-- An outcome's state satisfies the test. -/
def holdsAfter (o : Host.Outcome State Fault Refusal) (f : State → Bool) : Bool :=
  match o with
  | .next t => f t
  | .fault _ => false
  | .refused _ => false

/-! ### Well-formedness -/

theorem test_shortFrame_illFormed : (Instr.linkFrame 0 { frame5 with slots := [] }).wellFormed = false := by decide +kernel
theorem test_longFrame_illFormed :
    (Instr.linkFrame 3 { frame5 with slots := { sample := 0#24, valid := false } :: frame5.slots }).wellFormed = false := by decide +kernel
theorem test_frame_wellFormed : (Instr.linkFrame 0 frame5).wellFormed = true := by decide +kernel
theorem test_noWordSpellsACommand : decodeTableWord 8 1 = none := by decide +kernel

/-! ### The spec's figures -/

-- R151: the check byte of 0x01, 0x02 is 0x1B.
theorem test_crc : crc [0x01#8, 0x02#8] = 0x1B#8 := by decide +kernel
-- R87: the largest programme power, and a power of 1.
theorem test_rawLevel_largest : rawLevel (31 * 2 ^ 37) = 239 := by decide +kernel
theorem test_rawLevel_one : rawLevel 1 = -1024 := by decide +kernel
-- R108, notes 2 and 3.
theorem test_multiplier_unity : multiplier 0 = 4194304 := by decide +kernel
theorem test_multiplier_top : multiplier 120 = 16697824 := by decide +kernel
-- R4: the example across the wrap.
theorem test_reached : instantReached 100#32 4294967000#32 = true ∧ instantReached 4294966990#32 4294967000#32 = false := by decide +kernel
-- Section 7.9 and 1.3: 96 kHz strap and nominal held periods.
theorem test_hardwareReset : holdsAfter (exec (.hardwareReset .resetPin true 5#6 2) on) (fun t =>
    t.tb.held == 262144 && t.port.mlk == 2 && t.port.addr == 5#6) = true := by decide +kernel
-- R3: the frame after the reset's first one has HFC 1 and slice phase 1.
theorem test_houseFrame : holdsAfter (exec .houseFrame State.reset) (fun t => t.tb.hfc == 1#32 && t.tb.phase == 1) = true := by
  decide +kernel
-- R13, R14: a SILENT receiver hunts at a transition; the third alignment word in a row frames it.
theorem test_lineTransition : holdsAfter (exec (.lineTransition 0) State.reset) (fun t => t.rx[0].state == .hunting) = true := by
  decide +kernel
theorem test_alignmentWordFound :
    holdsAfter (exec (.alignmentWordFound 0 { pos := 878, found := true })
      (withRx fun x => { x with state := .hunting, candidates := 2, lookAt := 878 })) (fun t =>
      t.rx[0].state == .framed) = true := by decide +kernel
-- R14: a word missing one frame length after the candidate at bit 100 resumes the search at bit 116.
theorem test_alignmentWordMissing :
    holdsAfter (exec (.alignmentWordFound 0 { pos := 539, found := false })
      (withRx fun x => { x with state := .hunting, candidates := 1, first := 100, lookAt := 539 })) (fun t =>
      t.rx[0].candidates == 0 && t.rx[0].lookAt == 116) = true := by decide +kernel
-- R15, R32: the delivered sample stands in ring entry 0, and W is 1.
theorem test_linkFrame : holdsAfter (exec (.linkFrame 0 frame5) (withRx fun x => { x with state := .framed })) (fun t =>
    t.cv[0].w == 1#32 && t.cv[0].ring[0][0] == 5#24) = true := by decide +kernel
-- R34, R49: n = 1,024 in 1,024 frames is a ratio of 1.0, so L_c is 34.
theorem test_acquisitionEnd : holdsAfter (exec (.acquisitionEnd 0) (withTables (inMode .convert)
    (withCv fun c => { c with state := .acquiring, m := 1024, n := 1024 }))) (fun t =>
      t.cv[0].state == .locked && t.cv[0].q0 == 16777216 && t.cv[0].lc == 34) = true := by decide +kernel
-- R112: a MUTE of a present programme.
theorem test_mute : holdsAfter (exec .mute (asked on 0x28#8 [0#8])) (fun t =>
    t.gain[0].command && t.port.replies == [{ addr := 0#6, kind := .reply, tag := 9#8, code := 0x28#8, payload := [0#8, 0#8, 1#8] }]) =
    true := by decide +kernel
-- R165: a payload of the wrong length is BAD_LENGTH, a code that names no command BAD_CODE.
theorem test_badLength : holdsAfter (exec .mute (asked on 0x28#8 [])) (fun t =>
    t.port.replies.map (·.payload) == [[1#8]]) = true := by decide +kernel
theorem test_badCode : holdsAfter (exec .unknownCode (asked on 0x06#8 [])) (fun t =>
    t.port.replies.map (·.payload) == [[2#8]]) = true := by decide +kernel
-- R57: a region that ends at page 1,024 is accepted, one beyond is not.
theorem test_region_edge : readRegion [3#8, 255#8, 0#8, 1#8] = some (some { base := 1023, count := 1 }) ∧
    readRegion [3#8, 255#8, 0#8, 2#8] = none := by decide +kernel

/-! ### Witnesses: the step, the house frame and the timebase -/

theorem witness_StepTakesTheFrontCommand :
    ({ State.reset with pending := [.houseFrame] } : State).pending = .houseFrame :: [] ∧ State.reset.pending = [] := ⟨rfl, rfl⟩

/-- The bank's regions lie inside the store. -/
theorem on_regionsFit : Safety.RegionsFit on := by
  intro c r h
  have h0 : ∀ c : ChannelId, (on.tables.bank0.regions[c] = none ∨ on.tables.bank0.regions[c] = some { base := 0, count := 1 }) ∧
      on.tables.bank1.regions[c] = none := by decide +kernel
  rcases h with h | h
  · rcases (h0 c).1 with e | e <;> rw [e] at h <;> simp at h; subst h; decide
  · rw [(h0 c).2] at h; simp at h

/-- Frame bases: the frame in progress is settled, and a boundary is placed. -/
def settled : State := { on with frame := { on.frame with arbiterTurn := false } }

/-- At a frame that begins with an idle executor: the frame is not one in which the executor acts, so a command
that joins the queue in it waits for the next (R158). -/
theorem witness_HouseFrameStarts_executor : settled.frame.executorTurn = false ∧
    holdsAfter (exec .houseFrame (asked settled 0x01#8 [])) (fun t => t.frame.executorTurn) = false ∧
    holdsAfter (exec .houseFrame { settled with port := { settled.port with commands := [command 0x01#8 []] } })
      (fun t => t.frame.executorTurn && t.port.replies.isEmpty) = true := by decide +kernel

theorem witness_HouseFrameStarts :
    (settleTimebase on.tb).boundary = some 524288 ∧ Safety.RegionsFit on := ⟨by decide +kernel, on_regionsFit⟩

/-- A bank whose only region reaches one page beyond the store. -/
def beyond : State :=
  { settled with tables := { settled.tables with bank0 := { resetRouting with
      regions := resetRouting.regions.set 0 (some { base := 1023, count := 2 }) } } }

theorem witness_HouseFrameStarts_stop : (settleTimebase beyond.tb).boundary = some 524288 ∧
    (beyond.setTb (settleTimebase beyond.tb)).settleFrame.regionOf 0 = some { base := 1023, count := 2 } ∧
    1024 < (1023 : Nat) + 2 := by decide +kernel

theorem witness_HouseFrameOutputsAndFaders : settled.tb.boundary = some 524288 ∧ settleTimebase settled.tb = settled.tb ∧
    settled.settleFrame = settled ∧ Safety.RegionsFit settled ∧ settled.active.outputMap[1] = some 0 ∧
    settled.active.outputMap[0] = none ∧ settled.record 0 = some record0 :=
  ⟨by decide +kernel, by decide +kernel, by decide +kernel, on_regionsFit, by decide +kernel, by decide +kernel, rfl⟩

/-- What the frame latches: C0's source in PRIMARY, P0's service, trim and held gain; P1 is absent. -/
theorem witness_HouseFrameOutputsAndFaders_latched : settled.sources[0] = .primary ∧ settled.record 1 = none ∧
    holdsAfter (exec .houseFrame settled) (fun t => t.frame.selected[0] == some { link := 0, slot := 0 } &&
      t.gain[0].serviceDue && !t.gain[0].stepDue && t.gain[0].frameTrim == 0 && t.gain[0].frameApp == settled.gain[0].app &&
      !t.gain[1].serviceDue) = true := by decide +kernel

/-- In COPYING at a copy position. -/
def copyingAt (pos : Nat) : State := withTables (fun t => { t with bankState := .copying, copyPos := pos }) settled
def copying : State := copyingAt 31

/-- At the last entry of each table that a frame's copy takes, and at the 104th. -/
theorem witness_HouseFrameOutputsAndFaders_copy : ∀ pos ∈ [31, 63, 71, 102, 103],
    (copyingAt pos).tb.boundary = some 524288 ∧ (copyingAt pos).settleFrame = copyingAt pos ∧
    settleTimebase (copyingAt pos).tb = (copyingAt pos).tb ∧ (copyingAt pos).tables.bankState = .copying ∧
    (copyingAt pos).tables.copyPos = pos := by decide +kernel
theorem copyingAt_regionsFit (pos : Nat) : Safety.RegionsFit (copyingAt pos) := on_regionsFit

theorem witness_RefPulseOutsideLocked : State.reset.tb.good < 256 ∧ State.reset.tb.ref = .absent ∧
    State.reset.tb.lastPulse = none ∧ (withTb fun t => { t with ref := .holdover }).tb.ref = .holdover := by decide +kernel
/-- In REF_REGAIN with held period 524,288: 2,050 ticks are in band, 2,051 are not. -/
theorem witness_RefPulseOutsideLocked_band : (withTb fun t => { t with ref := .regain, lastPulse := some 0 }).tb.good < 256 ∧
    (((2050 : Nat) - (0 : Int)) * 256 - (524288 : Nat)).natAbs ≤ 524288 / 1000 ∧
    524288 / 1000 < (((2051 : Nat) - (0 : Int)) * 256 - (524288 : Nat)).natAbs := by decide +kernel

/-- REF_LOCKED with E = 4,096 ticks: the window runs from tick 3,072 to tick 5,120. -/
def locked : State := withTb fun t => { t with ref := .locked, expected := 1048576, boundary := none, refineFrom := some 2048 }

theorem witness_RefPulseInLocked : locked.tb.ref = .locked ∧ locked.tb.refineCount < 256 ∧
    512 * 3071 + locked.tb.held < 2 * locked.tb.expected ∧ 2 * locked.tb.expected + locked.tb.held < 512 * 5121 ∧
    2 * locked.tb.expected ≤ 512 * 3072 + locked.tb.held ∧ 512 * 3072 ≤ 2 * locked.tb.expected + locked.tb.held ∧
    2 * locked.tb.expected ≤ 512 * 5120 + locked.tb.held ∧ 512 * 5120 ≤ 2 * locked.tb.expected + locked.tb.held ∧
    locked.tb.refineFrom = some 2048 ∧ (((4096 : Nat) - (2048 : Int)) * 256 - locked.tb.held).natAbs ≤ locked.tb.held / 1000 ∧
    locked.tb.held / 1000 < (((4099 : Nat) - (2048 : Int)) * 256 - locked.tb.held).natAbs := by decide +kernel
/-- A window that ends at tick 3,072 has had its pulse: tick 3,072 is a stray, tick 3,073 is not. -/
theorem witness_RefPulseInLocked_stray :
    let s : State := { locked with tb := { locked.tb with acceptedEnd := some (512 * 3072) } }
    (∀ e : Nat, s.tb.acceptedEnd = some e → 512 * 3072 ≤ e ∧ e < 512 * 3073) ∧
    (∀ e : Nat, locked.tb.acceptedEnd = some e → e < 512 * 3072) ∧ s.tb.ref = .locked ∧ s.tb.refineCount < 256 ∧
    holdsAfter (exec (.refPulse 3072) s) (fun t => t == s) = true ∧
    holdsAfter (exec (.refPulse 3073) s) (fun t => t.tb.lastPulse == some 3073) = true :=
  ⟨fun e h => by simp at h; omega, fun e h => absurd (show (none : Option Nat) = some e from h) (by simp), rfl, by decide, by decide +kernel,
    by decide +kernel⟩
theorem witness_RefPulseInLocked_empty :
    (withTb fun t => { t with ref := .locked, expected := 1048576 }).tb.refineFrom = none := by decide +kernel

def reached (missing : Nat) : State := { locked with tb := { locked.tb with reached := true, missing := missing } }

theorem witness_ExpectedInstantAndWindowClose : locked.tb.ref = .locked ∧ locked.tb.refineCount < 256 ∧
    locked.tb.boundary = none ∧ locked.tb.reached = false ∧ (reached 2).tb.reached = true ∧ (reached 2).tb.missing < 3 ∧
    (reached 3).tb.missing = 3 ∧ (reached 3).tb.boundary = none := by decide +kernel

theorem witness_GoodCountEnds : (withTb fun t => { t with lastPulse := some 7, good := 255 }).tb.good < 256 ∧
    (withTb fun t => { t with lastPulse := some 7, good := 255 }).tb.ref = .absent ∧
    (withTb fun t => { t with lastPulse := some 7, ref := .regain }).tb.ref = .regain ∧ State.reset.tb.lastPulse = none ∧
    (withTb fun t => { t with lastPulse := some 7, good := 256, ref := .regain }).tb.good = 256 ∧
    (withTb fun t => { t with ref := .locked, refineCount := 256 }).tb.refineCount = 256 := by decide +kernel

def atBoundary : State := { on with frame := { on.frame with boundaryDue := true } }

theorem witness_SliceBoundaryWork : atBoundary.frame.boundaryDue = true ∧ atBoundary.record 0 = some record0 ∧
    atBoundary.record 1 = none := ⟨rfl, rfl, rfl⟩

/-- P0 with three powers of 2^34 and a building record that gives the fourth: a level of 0 above the gate of −60.0. -/
def atDecision (acc : Nat) : State :=
  (atBoundary.setLoud 0 { history := [2 ^ 34, 2 ^ 34, 2 ^ 34], window := none, sum := 0, count := 0 }).setMeas 0
    { resetMeas with building := { acc := acc, peak := 0, fsCount := 0, outClips := 0 } }

/-- P0 with this record, window history, integrator and queue at a boundary. -/
def deciding (r : ProgRecord) (history : List Nat) (sum count : Nat) (q : List GainEntry) : State :=
  let s := withTables (fun t => { t with bank0 := { bank0 with programmes := resetRouting.programmes.set 0 (some r) } }) atBoundary
  (s.setLoud 0 { history := history, window := none, sum := sum, count := count }).setGain 0 { s.gain[0] with queue := q }

/-- P0 comes out of the boundary with this decision and this queue length. -/
def decides (s : State) (d : Decision) (n : Nat) : Bool :=
  s.frame.boundaryDue && (s.record 0).isSome &&
    holdsAfter (exec .sliceBoundary s) fun t => t.gain[0].decision == d && t.gain[0].queue.length == n

def tail (due : Instant) : GainEntry := { due := due, target := 0 }

/-- Three powers of 2^34 and a fourth of 0: a level of about −1.2, in SHORT, in INTEGRATED and in OFF. -/
theorem witness_DecisionAtABoundary :
    decides (deciding record0 [2 ^ 34, 2 ^ 34, 2 ^ 34] 0 0 []) .appended 1 = true ∧
    decides (deciding record0 [2 ^ 34, 2 ^ 34, 2 ^ 34] 0 0 [tail 0#32]) .appended 2 = true ∧
    decides (deciding record0 [2 ^ 34, 2 ^ 34, 2 ^ 34] 0 0 (List.replicate 4 (tail 5#32))) .coalesced 4 = true ∧
    decides (deciding { record0 with target := 0, deadband := 40 } [2 ^ 34, 2 ^ 34, 2 ^ 34] 0 0 [tail 0#32])
      .withinDeadband 1 = true ∧
    decides (deciding record0 [0, 0, 0] 0 0 []) .noLevel 0 = true ∧
    decides (deciding record0 [0, 0] 0 0 []) .noLevel 0 = true ∧
    decides (deciding { record0 with mode := .integrated } [0, 0] (2 ^ 34) 1 []) .appended 1 = true ∧
    decides (deciding { record0 with mode := .integrated } [0, 0] 0 0 []) .noLevel 0 = true ∧
    decides (deciding { record0 with mode := .off } [2 ^ 34, 2 ^ 34, 2 ^ 34] 0 0 []) .noLevel 0 = true := by decide +kernel
/-- Against the target −23.0, a level of −23.0 lies within the deadband of 2 and one of −22.8 at its edge; the tail's instant
lies ahead of the candidate or not; the one member counts for the lookahead or not. -/
theorem witness_DecisionAtABoundary_edges :
    (clampInt (-(record0.cutMax : Int)) record0.boostMax (roundDiv ((record0.target - (-230)) * record0.strength) 8) -
      on.gain[0].tgt).natAbs < record0.deadband ∧
    record0.deadband ≤ (clampInt (-(record0.cutMax : Int)) record0.boostMax
      (roundDiv ((record0.target - (-228)) * record0.strength) 8) - on.gain[0].tgt).natAbs ∧
    (on.tb.hfc + BitVec.ofNat 32 (on.lookahead 0) - on.tb.hfc).toNat < ((1#32 : Instant) - on.tb.hfc).toNat ∧
    ¬ (on.tb.hfc + BitVec.ofNat 32 (on.lookahead 0) - on.tb.hfc).toNat < ((0#32 : Instant) - on.tb.hfc).toNat ∧
    on.regionOf 0 ≠ none ∧ on.selectedOf 0 ≠ none ∧ on.regionOf 1 = none := by decide +kernel

/-- P0 comes out of the boundary with this window mark of admission (none: no window) and this C. -/
def admits (s : State) (mark : Option (Bool × Bool)) (count : Nat) : Bool :=
  s.frame.boundaryDue && (s.record 0).isSome &&
    holdsAfter (exec .sliceBoundary s) fun t =>
      (t.loud[0].window.map fun w => (w.gatedIn, w.admitted)) == mark && t.loud[0].count == count

theorem witness_WindowAndAdmission :
    admits (deciding record0 [2 ^ 34, 2 ^ 34] 0 0 []) none 0 = true ∧
    admits (deciding record0 [2 ^ 34, 2 ^ 34, 2 ^ 34] 0 0 []) (some (true, true)) 1 = true ∧
    admits (deciding record0 [2 ^ 34, 2 ^ 34, 2 ^ 34, 0] (65534 * 2 ^ 34) 65534 []) (some (true, true)) 65535 = true ∧
    admits (deciding record0 [2 ^ 34, 2 ^ 34, 2 ^ 34] (65535 * 2 ^ 34) 65535 []) (some (true, true)) 32768 = true ∧
    admits (deciding { record0 with gateDepth := 0 } [2 ^ 34, 2 ^ 34, 2 ^ 34] (2 ^ 34) 1 []) (some (true, false)) 1 = true ∧
    admits (deciding record0 [0, 0, 0] (2 ^ 34) 1 []) (some (false, false)) 1 = true := by decide +kernel

/-! ### Witnesses: receivers, assembler and converters -/

/-- In CONVERT with m at its end; n = 512 and 2,303 are the ends of the supported range, 511 and 2,304 lie outside. -/
def measured (x : CvState) (n : Nat) : State := withTables (inMode .convert) (withCv fun c => { c with state := x, m := 1024, n := n })

def tracking : State := withTables (inMode .convert) (withCv fun c => { c with state := .locked, track := 256, q0 := 8388608 })

/-- In HUNTING with this many candidates in a row, the search looking at bit 539 for a candidate at bit 100. -/
def hunting (k : Nat) : Receiver := { State.reset.rx[0] with state := .hunting, candidates := k, first := 100, lookAt := 539 }

theorem witness_ReceiverSearchSteps : State.reset.rx[0].state = .silent ∧ (hunting 0).state = .hunting ∧
    (hunting 0).candidates = 0 ∧ (hunting 1).candidates = 1 ∧ (hunting 2).candidates = 2 ∧
    (hunting 0).lookAt ≤ (WordLook.mk 539 true).pos ∧ (WordLook.mk 538 true).pos < (hunting 0).lookAt ∧
    (WordLook.mk 539 true).pos = (hunting 1).lookAt ∧ (WordLook.mk 540 true).pos ≠ (hunting 1).lookAt ∧
    (WordLook.mk 539 false).found = false ∧
    (withRx fun x => { x with state := .framed }).rx[0].state = .framed := by decide +kernel

/-- Leaving FRAMED on the management link with a message in progress at a quiet count of 63, with none, and on another link. -/
theorem witness_ReceiverSearchSteps_timeout :
    let p : Port := { State.reset.port with assembler := { idleAssembler with collecting := true, quiet := 63 } }
    let s : State := { withRx fun x => { x with state := .framed } with port := p }
    s.rx[0].state = .framed ∧ (0 : LinkId) = s.port.mlk ∧ s.port.assembler.collecting = true ∧ s.port.assembler.quiet < 64 ∧
    (s.setRx 1 s.rx[0]).rx[1].state = .framed ∧ (1 : LinkId) ≠ s.port.mlk ∧ State.reset.port.assembler.collecting = false ∧
    s.cv[0].state = .dark ∧ tracking.cv[0].state ≠ .dark := by decide +kernel

theorem witness_GoodLinkFrame : (withRx fun x => { x with state := .framed }).rx[0].state = .framed ∧ frame5.wellFormed = true ∧
    frame5.align = alignmentWord ∧ evenParity frame5 = true ∧ frame5.present0 = true ∧ frame5.present1 = false ∧
    State.reset.port.mlk = 0 ∧ State.reset.port.assembler.quiet < 64 ∧ (1 : LinkId) ≠ State.reset.port.mlk ∧
    ({ frame5 with present1 := true } : LinkFrame).present1 = true ∧ ({ frame5 with present0 := false } : LinkFrame).present0 = false := by
  decide +kernel
/-- An arrival is counted in ACQUIRING in CONVERT up to m = 1,023 and in UNSUPPORTED in DIRECT, at n = 65,534 last; not at
m = 1,024 in CONVERT and not in DARK. -/
theorem witness_GoodLinkFrame_counts :
    (measured .acquiring 65534).cv[0].n < 65535 ∧ ¬ (measured .acquiring 0).cv[0].m < 1024 ∧
    (measured .acquiring 0).modeOf 0 ≠ .direct ∧ (withCv fun c => { c with state := .acquiring, m := 1023 }).cv[0].m < 1024 ∧
    (withTables (inMode .direct) (withCv fun c => { c with state := .unsupported })).modeOf 0 = .direct ∧
    on.cv[0].state = .dark := by decide +kernel

theorem witness_FaultedLinkFrame : ({ frame5 with align := 0#16 } : LinkFrame).align ≠ alignmentWord ∧
    (withRx fun x => { x with state := .framed, badRun := 2 }).rx[0].badRun < 3 ∧
    (withRx fun x => { x with state := .framed, badRun := 3 }).rx[0].badRun = 3 ∧
    evenParity { frame5 with parity := !frame5.parity } = false ∧ on.cv[0].state = .dark ∧ tracking.cv[0].state ≠ .dark ∧
    State.reset.port.assembler.collecting = false ∧
    (withPort fun p => { p with assembler := { idleAssembler with collecting := true, quiet := 63 } }).port.assembler.quiet < 64 := by
  decide +kernel

theorem witness_AssemblerMessages : messageBytes (command 0x01#8 []) =
    0x00#8 :: [9#8, 0x01#8, 0#8, crc [0x00#8, 9#8, 0x01#8, 0#8]] ∧ (command 0x01#8 []).payload.length ≤ 248 ∧
    (command 0x01#8 []).addr = State.reset.port.addr ∧ (command 0x01#8 []).addr ≠ 63#6 ∧
    State.reset.port.assembler = idleAssembler ∧ State.reset.port.commands.length < 4 := by decide +kernel
theorem witness_AssemblerMessages_timeout :
    (withPort fun p => { p with assembler := { idleAssembler with collecting := true, quiet := 64 } }).port.assembler.quiet = 64 ∧
    (withPort fun p => { p with assembler := { idleAssembler with collecting := true, quiet := 63 } }).port.assembler.quiet < 64 ∧
    State.reset.port.assembler.collecting = false := by decide +kernel

/-- Full queues and queues with room, a unicast and a broadcast command, a reply to relay; a message in progress at its length
byte, at its check byte, and none. -/
theorem witness_MessageRouting :
    let p (n k m : Nat) : Port := { State.reset.port with
      relay := List.replicate n [1#8], commands := List.replicate k (command 1#8 []), replies := List.replicate m (command 1#8 []) }
    (p 8 4 8).relay.length ≤ 8 ∧ (p 8 4 8).commands.length ≤ 4 ∧ (p 7 3 7).relay.length < 8 ∧ (p 7 3 7).commands.length < 4 ∧
    (p 8 4 8).commands.length = 4 ∧ 8 ≤ (p 8 4 8).replies.length ∧ (p 7 4 7).replies.length < 8 ∧
    (command 1#8 []).addr = (p 0 0 0).addr ∧ ({ command 1#8 [] with addr := 63#6 } : Message).addr = 63#6 ∧
    ({ command 1#8 [] with kind := .reply } : Message).kind ≠ .command := by decide +kernel
theorem witness_MessageRouting_bytes :
    let a (bs : List Byte) (e : Option Nat) : Assembler := { idleAssembler with collecting := true, buffer := bs, expected := e, crc := crc bs }
    (3#8 : Byte).toNat % 4 = 3 ∧ (4#8 : Byte).toNat % 4 ≠ 3 ∧ 248 < (249#8 : Byte).toNat ∧ (a [0#8, 9#8, 1#8] none).buffer.length = 3 ∧
    (a [0#8, 9#8, 1#8, 0#8] (some 5)).expected = some ((a [0#8, 9#8, 1#8, 0#8] (some 5)).buffer.length + 1) ∧
    crcByte (a [0#8, 9#8, 1#8, 0#8] (some 5)).crc (crc [0#8, 9#8, 1#8, 0#8]) = 0#8 ∧
    crcByte (a [0#8, 9#8, 1#8, 0#8] (some 5)).crc (crc [0#8, 9#8, 1#8, 0#8] ^^^ 1#8) ≠ 0#8 ∧
    idleAssembler.collecting = false := by decide +kernel

theorem witness_LeaveDarkStartsAcquiring : (withCv fun c => { c with leaveDue := true }).cv[0].state = .dark ∧
    (withCv fun c => { c with leaveDue := true }).cv[0].leaveDue = true ∧
    (withTables (inMode .direct) (withRx fun x => { x with state := .framed })).rx[0].state = .framed ∧
    (withTables (inMode .direct) State.reset).modeOf 0 ≠ .off ∧ on.cv[0].leaveDue = false := by decide +kernel

theorem witness_MeasurementEnds : (measured .acquiring 512).modeOf 0 = .convert ∧ (measured .acquiring 512).cv[0].m = 1024 ∧
    8388608 ≤ (measured .acquiring 512).cv[0].n * 16384 ∧ (measured .unsupported 2303).cv[0].n * 16384 ≤ 37748735 ∧
    (measured .acquiring 511).cv[0].n * 16384 < 8388608 ∧ 37748735 < (measured .unsupported 2304).cv[0].n * 16384 ∧
    (measured .acquiring 512).cv[0].state = .acquiring ∧ (measured .unsupported 2303).cv[0].state = .unsupported := by
  decide +kernel

/-- C0 with this source state on a line that moves nowhere, before the lock. -/
def locking (x : SourceState) (lc : Nat) : State :=
  let s := measured .acquiring 1024
  { s.setCv 0 { s.cv[0] with lc := lc } with sources := s.sources.set 0 x }

/-- C0 comes out of the lock in PRIMARY, with this move of its line. -/
def locksWith (s : State) (x : SourceState) (y : Move) : Bool :=
  holdsAfter (exec (.acquisitionEnd 0) s) fun t => t.sources[0] == x && t.lines[0].move == y && t.cv[0].lc == 34

/-- C0 waits for Link A and changes its selected source; its selected source is on Link A with a new L_c, so that its target
of 66 starts a CUT; L_c stays at 34; its selected source is elsewhere. -/
theorem witness_MeasurementEnds_lines : Safety.primaryLink (locking .pending 0) 0 0 ∧ (locking .pending 0).sources[0] = .pending ∧
    locksWith (locking .pending 0) .primary .cutFall = true ∧ locksWith (locking .primary 0) .primary .cutFall = true ∧
    locksWith (locking .primary 34) .primary .idle = true ∧ locksWith (locking .backup 0) .backup .idle = true ∧
    (locking .backup 0).selectedOf 0 = some { link := 1, slot := 0 } :=
  ⟨⟨_, rfl, rfl⟩, by decide +kernel⟩
theorem witness_DirectAcquisitionLocks_lines :
    let s := withTables (inMode .direct) (withCv fun c => { c with state := .acquiring, n := 8 })
    holdsAfter (exec (.directAcquisitionEnd 0) { s with sources := s.sources.set 0 .pending }) (fun t =>
      t.sources[0] == .primary && t.lines[0].move == .cutFall && t.lines[0].tgt == 94) = true := by decide +kernel
theorem witness_SpliceJumpAndEnd_lines :
    let s := withTables (inMode .convert)
      (withCv fun c => { c with state := .splicing, splice := .rise, spliceCount := 64, qInt := 16777216, lc := 33 })
    holdsAfter (exec (.spliceEnd 0) s) (fun t => t.cv[0].lc == 34 && t.lines[0].move == .cutFall) = true := by decide +kernel

/-- Two enabled entries: below the lower bound, at it, and at the upper one. -/
theorem witness_MeasurementEnds_set :
    let sel : Vector (Option SelectEntry) 4 :=
      #v[none, some { set := 1, bound := 8388608 }, none, some { set := 2, bound := 16777216 }]
    (∀ (i : Fin 4) (x : SelectEntry), sel[i] = some x → 8388607 < x.bound) ∧ sel[(1 : Fin 4)] = some { set := 1, bound := 8388608 } ∧
    8388608 ≤ 8388608 ∧ (∀ (j : Fin 4) (y : SelectEntry), j ≠ 1 → sel[j] = some y → y.bound ≤ 8388608 → y.bound < 8388608) ∧
    16777216 ≤ 16777216 ∧ (∀ (j : Fin 4) (y : SelectEntry), j ≠ 3 → sel[j] = some y → y.bound ≤ 16777216 → y.bound < 16777216) := by
  refine ⟨?_, rfl, by decide, ?_, by decide, ?_⟩ <;> intro j y <;> revert y <;> revert j <;> simp [Fin.forall_fin_succ]

theorem witness_DirectAcquisitionLocks :
    (withTables (inMode .direct) (withCv fun c => { c with state := .acquiring, n := 8 })).modeOf 0 = .direct ∧
    (withTables (inMode .direct) (withCv fun c => { c with state := .acquiring, n := 8 })).cv[0].state = .acquiring ∧
    8 ≤ (withCv fun c => { c with state := .acquiring, n := 8 }).cv[0].n ∧
    (withCv fun c => { c with state := .acquiring, n := 7 }).cv[0].n < 8 := by decide +kernel

theorem witness_ServoUpdateRule : tracking.cv[0].state = .locked ∧
    tracking.tables.linkConfig[0] = { mode := .convert, gp := 12, gi := 18 } ∧ tracking.cv[0].track = 256 ∧
    8388608 ≤ tracking.cv[0].q0 ∧ tracking.cv[0].q0 ≤ 37748735 := by decide +kernel

theorem witness_SpliceJumpAndEnd : (withCv fun c => { c with state := .splicing, jumpDue := true }).cv[0].jumpDue = true ∧
    (withCv fun c => { c with state := .splicing, splice := .rise, spliceCount := 64 }).cv[0].spliceCount = 64 ∧
    (withCv fun c => { c with state := .splicing, splice := .rise, spliceCount := 64 }).cv[0].splice = .rise ∧
    (withCv fun c => { c with state := .splicing, splice := .rise }).cv[0].state = .splicing := by decide +kernel

/-- A full-scale ring under a set whose 24 coefficients are each 2^18: every slot saturates. -/
theorem witness_SpliceJumpAndEnd_outputs :
    let s := withTables (fun t => { inMode .convert t with filters := (List.range 24).map fun k => (k, 262144) })
      (withCv fun c => { c with state := .splicing, jumpDue := true, w := 100#32, filter := some 0, saturations := 65530,
                                ring := Vector.replicate 64 (Vector.replicate 16 0x7FFFFF#24) })
    holdsAfter (exec (.spliceJump 0) s) (fun t => t.cv[0].fill == 32 && t.cv[0].rInt == 68#32 && t.cv[0].saturations == 65535 &&
      t.cv[0].last == Vector.replicate 16 131072#24) = true := by decide +kernel

/-- A settled frame with Link A's converter as given: W at 100, so that R of 99 less the fill gives it in LOCKED. -/
def converting (x : LinkMode) (f : Conv → Conv) : State := withTables (inMode x) (settled.setCv 0 (f { settled.cv[0] with w := 100#32 }))
/-- At a ratio of 1.0 with this fill to come. -/
def filled (n : Int) (c : Conv) : Conv := { c with qApplied := 16777216, rInt := BitVec.ofInt 32 (99 - n) }

/-- What every clause asks of the state, and a test of the converter after the house frame. -/
def converts (s : State) (f : Conv → Bool) : Bool :=
  s.tb.boundary == some 524288 && settleTimebase s.tb == s.tb && s.settleFrame == s && holdsAfter (exec .houseFrame s) fun t => f t.cv[0]

theorem converting_regionsFit (x : LinkMode) (f : Conv → Conv) : Safety.RegionsFit (converting x f) := on_regionsFit

theorem witness_ConverterHouseFrame_idle :
    converts (converting .convert fun c => { c with rampCount := 63 }) (fun c => c.state == .dark && c.rampCount == 64) = true ∧
    converts (converting .off fun c => { c with state := .acquiring }) (fun c => c.state == .dark && c.rampCount == 1) = true ∧
    converts (converting .convert fun c => { c with state := .acquiring, m := 1022 }) (fun c => c.m == 1023) = true ∧
    converts (converting .direct fun c => { c with state := .unsupported, m := 7 }) (fun c => c.m == 7) = true := by
  decide +kernel
/-- LEAVE_DARK is due at ramp count 64 and not at 63, nor with the receiver HUNTING, nor in OFF. -/
theorem witness_ConverterHouseFrame_leaveDark :
    let dark (x : LinkMode) (k : Nat) (r : RxState) : State :=
      withTables (inMode x) ((settled.setRx 0 { settled.rx[0] with state := r }).setCv 0 { settled.cv[0] with rampCount := k })
    converts (dark .convert 64 .framed) (fun c => c.leaveDue) = true ∧ converts (dark .direct 64 .framed) (fun c => c.leaveDue) = true ∧
    converts (dark .convert 63 .framed) (fun c => !c.leaveDue) = true ∧
    converts (dark .convert 64 .hunting) (fun c => !c.leaveDue) = true ∧
    converts (dark .off 64 .framed) (fun c => !c.leaveDue) = true := by decide +kernel
/-- LOCKED at the ends of the valid range, just outside it with the window at 2 and at 1, and at the ends of the extreme
ranges. -/
theorem witness_ConverterHouseFrame_locked :
    converts (converting .convert fun c => filled 14 { c with state := .locked }) (fun c => c.state == .locked && c.fill == 14) = true ∧
    converts (converting .direct fun c => filled 12 { c with state := .locked }) (fun c => c.state == .locked && c.track == 0) = true ∧
    converts (converting .convert fun c => filled 51 { c with state := .locked, window := 2 }) (fun c => c.state == .acquiring) = true ∧
    converts (converting .convert fun c => filled 13 { c with state := .locked, window := 1 }) (fun c => c.state == .splicing && c.g == 63) = true ∧
    converts (converting .convert fun c => filled 12 { c with state := .locked }) (fun c => c.jumped && c.g == 0) = true ∧
    converts (converting .direct fun c => filled 13 { c with state := .locked }) (fun c => !c.jumped && c.g == 63) = true := by
  decide +kernel
theorem witness_ConverterHouseFrame_splicing :
    converts (converting .convert fun c => filled 53 { c with state := .splicing, splice := .fall, spliceCount := 63 })
      (fun c => c.spliceCount == 64 && c.g == 0) = true ∧
    converts (converting .convert fun c => filled 54 { c with state := .splicing, splice := .fall, spliceCount := 1 })
      (fun c => c.jumped && c.rInt == 68#32) = true ∧
    converts (converting .convert fun c => filled 32 { c with state := .splicing, splice := .fall, spliceCount := 64, jumped := true })
      (fun c => c.splice == .rise && c.g == 1) = true ∧
    converts (converting .convert fun c => filled 32 { c with state := .splicing, splice := .fall, spliceCount := 64 })
      (fun c => c.jumpDue) = true ∧
    converts (converting .convert fun c => filled 32 { c with state := .splicing, splice := .rise, spliceCount := 62 })
      (fun c => c.g == 63) = true := by decide +kernel

/-! ### Witnesses: lines, gain, alarms and banks -/

theorem witness_LineMoveSteps : (withLine fun l => { l with move := .slew, slew := 16 }).lines[0].move = .slew ∧
    programmeOf on.active 0 = some 0 ∧ on.record 0 = some record0 ∧
    record0.slewInterval ≤ (withLine fun l => { l with move := .slew, slew := 16 }).lines[0].slew ∧
    (withLine fun l => { l with move := .slew, slew := 15 }).lines[0].slew < record0.slewInterval ∧
    (withLine fun l => { l with move := .cutFall, jumpDue := true }).lines[0].jumpDue = true ∧
    (withLine fun l => { l with move := .cutRise }).lines[0].g = 64 ∧
    (withLine fun l => { l with move := .cutRise }).lines[0].tgt = (withLine fun l => { l with move := .cutRise }).lines[0].cur ∧
    (withLine fun l => { l with move := .cutRise, tgt := 1 }).lines[0].tgt ≠ (withLine fun l => { l with move := .cutRise, tgt := 1 }).lines[0].cur ∧
    on.lines[0].move = .idle := by decide +kernel

theorem witness_QueueServiceAndRampStep : on.record 0 = some record0 ∧
    (withGain fun g => { g with serviceDue := true }).gain[0].serviceDue = true ∧ on.record 1 = none ∧
    on.gain[0].serviceDue = false ∧ (withGain fun g => { g with stepDue := true }).gain[0].stepDue = true ∧
    on.gain[0].stepDue = false := by decide +kernel

/-- Rule 0 of kind REFERENCE, whose condition holds outside REF_LOCKED, at a boundary. -/
def evaluating (holds : Bool) (st : RuleState) (timer time : Nat) : State :=
  let s := atBoundary.setRule 0 { atBoundary.alarm.rules[0] with state := st, timer := timer }
  let rule : RuleRecord := { s.tables.ruleRecords[0] with
    enabled := true, kind := .reference, raiseTime := time, clearTime := time }
  { s with tb := { s.tb with ref := if holds then .absent else .locked },
           tables := { s.tables with ruleRecords := s.tables.ruleRecords.set 0 rule } }

/-- Rule 0 comes out of the boundary in this state, due or not. -/
def evaluates (s : State) (st : RuleState) (due : Option DueKind) : Bool :=
  s.frame.boundaryDue && holdsAfter (exec .sliceBoundary s) fun t =>
    t.alarm.rules[0].state == st && t.alarm.due.map (fun d => (d.rule, d.kind)) == (due.map fun k => ((0 : RuleId), k)).toList

theorem witness_RuleEvaluation : on.tables.ruleRecords[1].enabled = false ∧
    evaluates (evaluating true .quiet 0 0) .quiet (some .raising) = true ∧
    evaluates (evaluating true .quiet 0 1) .onset none = true ∧
    evaluates (evaluating true .onset 1 1) .onset (some .raising) = true ∧
    evaluates (evaluating true .onset 2 1) .onset none = true ∧
    evaluates (evaluating true .active 0 1) .active none = true ∧
    evaluates (evaluating true .easing 1 1) .active none = true ∧
    evaluates (evaluating true .held 0 1) .active none = true ∧
    evaluates (evaluating false .quiet 0 0) .quiet none = true ∧
    evaluates (evaluating false .onset 1 1) .quiet none = true ∧
    evaluates (evaluating false .active 0 0) .active (some .timerOut) = true ∧
    evaluates (evaluating false .active 0 1) .easing none = true ∧
    evaluates (evaluating false .easing 1 1) .easing (some .timerOut) = true ∧
    evaluates (evaluating false .easing 2 1) .easing none = true ∧
    evaluates (evaluating false .held 0 0) .held none = true := by decide +kernel

/-- Rule 1 of kind REFERENCE beside rule 0, whose condition holds as well. -/
def beside (s : State) (st : RuleState) : State :=
  { s.setRule 1 { s.alarm.rules[1] with state := st } with
      tables := { s.tables with ruleRecords := s.tables.ruleRecords.set 1 s.tables.ruleRecords[0] } }

/-- What stays due after the boundary, and the rules of the notices made in it. -/
def boundaryNotices (s : State) : List (RuleId × DueKind) × List RuleId :=
  match exec .sliceBoundary s with
  | .next t => (t.alarm.due.map fun d => (d.rule, d.kind), t.port.notices.map (·.rule))
  | .fault _ => ([], [])
  | .refused _ => ([], [])

-- R136: notices in ascending rule number: the return of rule 0 comes before the raise of rule 1, that of rule 1 after the
-- raise of rule 0, and two returns come together.
theorem witness_RuleEvaluation_order :
    boundaryNotices (beside (evaluating true .held 0 0) .quiet) = ([(1, .raising)], [0]) ∧
    boundaryNotices (beside (evaluating true .quiet 0 0) .held) = ([(0, .raising), (1, .returning)], []) ∧
    boundaryNotices (beside (evaluating true .held 0 0) .held) = ([], [0, 1]) := by decide +kernel
theorem test_returnWaitsForTheLowerRaise :
    holdsAfter (exec .sliceBoundary (beside (evaluating true .quiet 0 0) .held)) (fun t =>
      holdsAfter (exec (.alarmRaise 0) t) fun u =>
        u.port.notices.map (fun n => (n.rule, n.event, n.seq)) == [(0, .raised, 0#8), (1, .raised, 1#8)] && u.alarm.due == []) =
      true := by decide +kernel

/-- A state for every kind's condition at its threshold: figures of 5, a window at −23.0, a slip three slices ago, a delay flag, a
converter at the edge of its band. -/
def conditions : State :=
  let s := (withTables (inMode .convert) on).setMeas 0 { on.meas[0] with latest :=
    { on.meas[0].latest with peak := 5, fsCount := 5, outClips := 5 } }
  let s := s.setLoud 0 { on.loud[0] with window := some { power := 1, raw := -230, gatedIn := true, admitted := true } }
  let s := s.setCv 0 { on.cv[0] with state := .locked, q0 := 16777216, qInt := 16777216 + 65536, lastSlip := some 0#32 }
  let s := s.setLine 0 { on.lines[0] with short := true }
  { s with tb := { s.tb with slice := 3#32 } }

def ruleOf (k : RuleKind) (threshold : Int) : RuleRecord := { on.tables.ruleRecords[0] with kind := k, threshold := threshold }

-- R123 to R125: each condition on both sides of its threshold.
theorem witness_RuleEvaluation_kinds :
    (∀ x ∈ [(RuleKind.silence, 6), (.overload, 5), (.outputClip, 5), (.loudnessHigh, -231), (.loudnessLow, -229), (.slip, 3),
        (.ratioLimit, 0), (.delay, 0), (.reference, 0)], conditions.conditionHolds (ruleOf x.1 x.2) = true) ∧
    (∀ x ∈ [(RuleKind.silence, 5), (.overload, 6), (.outputClip, 6), (.loudnessHigh, -230), (.loudnessLow, -230), (.slip, 2),
        (.link, 0)], conditions.conditionHolds (ruleOf x.1 x.2) = false) ∧
    on.conditionHolds (ruleOf .link 0) = true ∧ on.conditionHolds (ruleOf .ratioLimit 0) = false ∧
    on.conditionHolds (ruleOf .delay 0) = false := by decide +kernel

/-- Rule 0 about to be raised, or about to time out, with an action. -/
def dueRule (k : DueKind) (x : Action) (latch : Bool) : State :=
  let s := withRule fun r => match k with
    | .raising => r
    | .timerOut => { r with state := .active, muted := 1#8, switched := 1#32 }
    | .returning => { r with state := .active }
  { s with sources := s.sources.set 0 (match k with
             | .raising => .primary
             | .timerOut => .backup
             | .returning => .primary),
           cv := s.cv.set 1 { s.cv[1] with state := .locked },
           alarm := { s.alarm with due := [{ rule := 0, kind := k, value := 3 }] },
           tables := { s.tables with ruleRecords :=
             s.tables.ruleRecords.set 0 { s.tables.ruleRecords[0] with enabled := true, action := x, latch := latch } } }

theorem witness_AlarmRaiseRule :
    (dueRule .raising .mute false).alarm.due = { rule := 0, kind := .raising, value := 3 } :: [] ∧ (dueRule .raising .mute false).port.notices.length < 16 ∧
    (dueRule .raising .none false).tables.ruleRecords[0].action = .none ∧
    (dueRule .raising .mute false).tables.ruleRecords[0].action = .mute ∧
    (dueRule .raising .backup false).tables.ruleRecords[0].action = .backup := by decide +kernel
/-- Rule 0 of this kind and subject in the state of `dueRule`: who is named, and who is aimed at. -/
def subjectOf (k : RuleKind) (n : Nat) : RuleRecord := { resetRuleRecord with kind := k, subject := n }

theorem witness_AlarmRaiseRule_named : let s := dueRule .raising .mute false
    (∀ e ∈ [subjectOf .silence 0, subjectOf .delay 0, subjectOf .slip 0, subjectOf .reference 0], Safety.Names s e 0) ∧
    (∀ e ∈ [subjectOf .silence 1, subjectOf .delay 1, subjectOf .slip 1], ¬ Safety.Names s e 0) ∧
    ¬ Safety.Names s (subjectOf .reference 0) 1 := by
  refine ⟨fun e he => (namedProgs_iff _ _ _).1 ?_, fun e he h => (?_ : (0 : ProgId) ∉ _) ((namedProgs_iff _ _ _).2 h),
    fun h => absurd ((namedProgs_iff _ _ _).2 h) (by decide +kernel)⟩
  · revert e; decide +kernel
  · clear h; revert e; decide +kernel
theorem witness_AlarmRaiseRule_aimed : let s := dueRule .raising .backup false
    (∀ e ∈ [subjectOf .silence 0, subjectOf .delay 0, subjectOf .slip 0, subjectOf .reference 0], Safety.Aims s e 0) ∧
    (∀ e ∈ [subjectOf .silence 1, subjectOf .delay 1, subjectOf .slip 1], ¬ Safety.Aims s e 0) ∧
    Safety.Switchable s 0 ∧ ¬ Safety.Switchable s 1 := by
  refine ⟨fun e he => (aimedChannels_iff _ _ _).1 ?_, fun e he h => (?_ : (0 : ChannelId) ∉ _) ((aimedChannels_iff _ _ _).2 h),
    (canSwitch_iff _ _).1 (by decide +kernel), fun h => absurd ((canSwitch_iff _ _).2 h) (by decide +kernel)⟩
  · revert e; decide +kernel
  · clear h; revert e; decide +kernel
/-- C0 goes to its backup on Link B, its line falls, and the notice of return of rule 1 that waited follows. -/
theorem witness_AlarmRaiseRule_lines :
    let s := dueRule .raising .backup false
    holdsAfter (exec (.alarmRaise 0) { s with alarm := { s.alarm with due := s.alarm.due ++ [{ rule := 1, kind := .returning, value := 4 }] } })
      (fun t => t.selectedOf 0 == some { link := 1, slot := 0 } && t.lines[0].move == .cutFall && t.alarm.due == [] &&
        t.port.notices.map (fun n => (n.rule, n.value)) == [(0, 3), (1, 4)]) = true := by decide +kernel

theorem witness_AlarmTimerOutRule :
    (dueRule .timerOut .mute false).alarm.due = { rule := 0, kind := .timerOut, value := 3 } :: [] ∧
    ((dueRule .timerOut .mute true).tables.ruleRecords[0].latch = true ∧ (dueRule .timerOut .mute true).alarm.rules[0].ack = false) ∧
    (dueRule .timerOut .mute false).tables.ruleRecords[0].latch = false ∧
    hasMember (dueRule .timerOut .mute false).alarm.rules[0].muted (0 : ProgId) = true ∧
    (dueRule .timerOut .mute false).present 0 = true ∧
    hasMember (dueRule .timerOut .backup false).alarm.rules[0].switched (0 : ChannelId) = true ∧
    hasMember (dueRule .timerOut .backup false).alarm.rules[0].switched (1 : ChannelId) = false ∧
    (dueRule .timerOut .backup false).sources[0] = .backup := by decide +kernel

/-- Where R25 sends C0 in BACKUP: to PRIMARY with Link A LOCKED, to wait for it otherwise, nowhere under MANUAL. -/
theorem witness_AlarmTimerOutRule_reverts :
    let s := dueRule .timerOut .backup false
    let manual := withTables (fun t => { t with bank0 := { t.bank0 with
      slotMap := t.bank0.slotMap.set 0 { t.bank0.slotMap[0] with manual := true } } }) s
    Safety.revertedSource (s.setCv 0 { s.cv[0] with state := .locked }) 0 = .primary ∧ Safety.revertedSource s 0 = .pending ∧
    Safety.revertedSource manual 0 = .backup ∧
    holdsAfter (exec (.alarmTimerOut 0) (s.setCv 0 { s.cv[0] with state := .locked })) (fun t => t.sources[0] == .primary &&
      t.lines[0].move == .cutFall && t.alarm.rules[0].state == .quiet && t.port.notices.map (·.event) == [.cleared]) = true ∧
    holdsAfter (exec (.alarmTimerOut 0) (dueRule .timerOut .mute true)) (fun t =>
      t.alarm.rules[0].muted == 1#8 && t.alarm.rules[0].state == .held) = true := by decide +kernel

/-- A take that is armed at HFC `i`, with P0 leaving and P1 joining. -/
def armed (i : Instant) : State :=
  withTables (fun t => { t with bankState := .armed, pendingInstant := some i,
                                bank1 := { resetRouting with programmes := resetRouting.programmes.set 1 (some record0) } }) on

theorem witness_TakeSwapAndCopyBack : (armed 0#32).tables.bankState = .armed ∧ (armed 0#32).tables.pendingInstant = some 0#32 ∧
    ((armed 0#32).tb.hfc - 0#32).toNat < 2147483648 ∧ 2147483648 ≤ ((armed 1#32).tb.hfc - 1#32).toNat ∧
    (armed 0#32).alarm.due = [] ∧ (armed 0#32).record 0 = some record0 ∧ (standbyBank (armed 0#32).tables).programmes[0] = none ∧
    (armed 0#32).active.regions[0] ≠ (standbyBank (armed 0#32).tables).regions[0] ∧
    (armed 0#32).active.regions[1] = (standbyBank (armed 0#32).tables).regions[1] ∧ (armed 0#32).record 1 = none ∧
    (standbyBank (armed 0#32).tables).programmes[1] = some record0 := by decide +kernel
/-- P0 staying, with the same members and with others. -/
theorem witness_TakeSwapAndCopyBack_stay : sameMembers record0.members { record0 with target := -300 }.members = true ∧
    sameMembers record0.members [{ channel := 1, weight := 16 }] = false ∧ { record0 with target := -300 } ≠ record0 := by
  decide +kernel
/-- A take of this bank, reached, with the line of C0 at its target. -/
def taking (b : Routing) : State :=
  let s := withTables (fun t => { t with bankState := .armed, pendingInstant := some 0#32, bank1 := b }) on
  s.setLine 0 { s.lines[0] with cur := 100, tgt := 100 }

/-- C0's line comes out of the take with this move and target, of a region that is assigned or not. -/
def takesTo (b : Routing) (m : Move) (tgt : Nat) : Bool :=
  holdsAfter (exec .takeSwap (taking b)) fun t => t.lines[0].move == m && t.lines[0].tgt == tgt &&
    t.active == b && (t.lines[0].cur == 100 || (t.lines[0].cur == tgt && b.regions[0] != bank0.regions[0]))

/-- Another selected source, another programme, a new D_t under CUT and under SLEW, nothing that concerns the line, and a new
region. -/
theorem witness_TakeSwapAndCopyBack_lines :
    takesTo { bank0 with slotMap := bank0.slotMap.set 0 { bank0.slotMap[0] with primary := some { link := 2, slot := 0 } } }
      .cutFall 100 = true ∧
    takesTo { bank0 with programmes := resetRouting.programmes.set 1 (some { record0 with dt := 150 }) } .cutFall 150 = true ∧
    takesTo { bank0 with programmes := bank0.programmes.set 0 (some { record0 with dt := 150, moveMode := .cut }) } .cutFall 150 = true ∧
    takesTo { bank0 with programmes := bank0.programmes.set 0 (some { record0 with dt := 150 }) } .slew 150 = true ∧
    takesTo { bank0 with programmes := bank0.programmes.set 0 (some { record0 with trim := 1 }) } .idle 100 = true ∧
    takesTo { bank0 with programmes := bank0.programmes.set 0 (some { record0 with dt := 150 }),
                         regions := bank0.regions.set 0 (some { base := 7, count := 1 }) } .idle 150 = true := by decide +kernel
-- R105, log entry 33: a step that the old I has left due stays due under a longer I.
theorem test_stepKeptUnderLongerInterval :
    let s := (taking { bank0 with programmes := bank0.programmes.set 0 (some { record0 with interval := 60 }) }).setGain 0
      { on.gain[0] with tgt := 50, ramp := 5, stepDue := true }
    holdsAfter (exec .takeSwap s) (fun t => t.gain[0].stepDue && t.gain[0].ramp == 5) = true := by decide +kernel

theorem witness_TakeSwapAndCopyBack_copy :
    (copyingAt 103).tables.copyPos = 103 ∧ (copyingAt 102).tables.copyPos ≠ 103 ∧ (copyingAt 103).tables.bankState = .copying ∧
    ({ copyingAt 103 with frame := { on.frame with copyDue := true } } : State).frame.copyDue = true ∧
    (copyingAt 103).frame.copyDue = false ∧ on.tables.bankState ≠ .copying := by decide +kernel
-- R148: the 104th copy, entry 31 of REGIONS, and the end of COPYING.
theorem test_copyBackComplete :
    holdsAfter (exec .copyBackComplete { copyingAt 103 with frame := { on.frame with copyDue := true } }) (fun t =>
      t.tables.bankState == .editing && t.tables.copyPos == 104) = true := by decide +kernel
-- R117: a GAIN reset and a take in one frame leave the gain of that frame as it was.
theorem test_gainResetAndTake :
    let s : State := asked ((armed 0#32).setGain 0 { (armed 0#32).gain[0] with app := 50, frameApp := 50 }) 0x48#8 [4#8]
    holdsAfter (exec .resetDomains s) (fun t => holdsAfter (exec .takeSwap (withTables (fun x => { x with
      bank1 := { bank0 with programmes := resetRouting.programmes.set 0 (some { record0 with deadband := 3 }) } }) t)) fun u =>
        u.gain[0].applied == 50 && u.gain[0].app == 0) = true := by decide +kernel

/-! ### Witnesses: the management port and the executor -/

def notice0 : Notice :=
  { seq := 0#8, rule := 0, event := .raised, severity := .major, kind := .link, subject := 0, slice := 0#32, value := 0 }

theorem witness_MessageBoundaryRoundRobin : State.reset.frame.arbiterTurn = true ∧ State.reset.port.flight = none ∧
    State.reset.port.relay = [] ∧ State.reset.port.replies = [] ∧ State.reset.port.notices = [] ∧
    (withPort fun p => { p with relay := [[1#8]], lastServed := .notice }).port.relay = [1#8] :: [] ∧
    (withPort fun p => { p with replies := [command 1#8 []], lastServed := .relay }).port.replies = command 1#8 [] :: [] ∧
    (withPort fun p => { p with notices := [notice0], lastServed := .reply }).port.notices = notice0 :: [] ∧
    (withPort fun p => { p with flight := some { bytes := [1#8], sent := 1 } }).port.flight = some { bytes := [1#8], sent := 1 } := by
  decide +kernel

/-- With a message of two bytes in flight, one of them sent or both, and with none. -/
theorem witness_MessageBoundaryRoundRobin_frames : ∀ f ∈ [none, some (Flight.mk [1#8, 2#8] 1), some (Flight.mk [1#8, 2#8] 2)],
    let s : State := { settled with port := { settled.port with flight := f } }
    s.tb.boundary = some 524288 ∧ settleTimebase s.tb = s.tb ∧ s.settleFrame = s := by decide +kernel

theorem witness_RefusalsChangeNothing : (commandOf 0x06#8 State.reset []).2.head? ≠ some 0#8 := by decide +kernel

theorem witness_ReplyPlacements : (command 1#8 []).addr ≠ 63#6 ∧ State.reset.port.replies.length < 8 ∧
    8 ≤ (withPort fun p => { p with replies := List.replicate 8 (command 1#8 []) }).port.replies.length ∧
    (asked on 1#8 []).frame.executorTurn = true ∧
    (withPort fun p => { p with holding := some (command 1#8 []) }).port.holding = some (command 1#8 []) := by decide +kernel

/-- Every statement about a command of the executor starts from a command that is ready; here at each code and with the
payloads of the clauses. -/
theorem witness_ready (code : Byte) (payload : List Byte) :
    Safety.Ready (asked on code payload) (command code payload) [] code ∧ (command code payload).payload = payload :=
  ⟨asked_ready on code payload rfl, rfl⟩

theorem witness_IdentifyAndUnknownCode : (command 0x06#8 []).code.toNat ∉ [0x01, 0x02, 0x03, 0x04, 0x05, 0x10, 0x11, 0x12,
    0x18, 0x19, 0x20, 0x21, 0x22, 0x28, 0x29, 0x30, 0x31, 0x32, 0x38, 0x40, 0x41, 0x42, 0x48] ∧ ([1#8] : List Byte) ≠ [] := by
  decide
theorem witness_ReadStatusClears : (1 : Nat) < (2#8 : Byte).toNat := by decide
theorem witness_ReadsChangeNoState : (3#8 : Byte).toNat ≤ 3 ∧ 1 ≤ (20#8 : Byte).toNat ∧ (12#8 : Byte).toNat + (20#8 : Byte).toNat ≤ 32 ∧
    (7#8 : Byte).toNat ≤ 7 ∧ on.record (Fin.ofNat 8 (1#8 : Byte).toNat) = none ∧
    on.record (Fin.ofNat 8 (0#8 : Byte).toNat) = some record0 ∧ on.loud[(0 : ProgId)].history = [] ∧
    (atDecision 0).loud[(0 : ProgId)].history ≠ [] := by decide +kernel
theorem witness_ReadEntriesReturnsWholeRecords : tableOf (1#8 : Byte).toNat = some .slotMap ∧ (1#8 : Byte).toNat ≤ 1 ∧
    1 ≤ (0#8 : Byte).toNat * 256 + (32#8 : Byte).toNat ∧
    (0#8 : Byte).toNat * 256 + (0#8 : Byte).toNat + ((0#8 : Byte).toNat * 256 + (32#8 : Byte).toNat) ≤ tableSize .slotMap ∧
    banked .slotMap = true ∧ copying.tables.bankState = .copying ∧
    ¬ (banked .slotMap = true ∧ (1#8 : Byte) = 1#8 ∧ on.tables.bankState = .copying) := by decide +kernel
theorem on_storesCanonical : Safety.StoresCanonical on := ⟨by decide +kernel, by decide +kernel⟩

/-- No converter runs, so no set is in use. -/
theorem on_notInUse (k : Nat) : ¬ Safety.InUse on k := by
  rintro ⟨l, set, h, -, -, -⟩
  have hd : ∀ l : LinkId, on.cv[l].state = .dark := by decide +kernel
  rcases h with h | h <;> rw [hd l] at h <;> exact absurd h (by decide)

/-- A write of valid records of a table inside it is accepted from `on`, where SET_SELECT's bounds rise. -/
theorem on_accepts (name : TableName) (first : Nat) (rs : List Record) (hv : ∀ r ∈ rs, r.table = name ∧ r.valid = true)
    (hn : first + rs.length ≤ tableSize name)
    (hs : name = .setSelect → ∀ (i j : Fin 4) (x y : SelectEntry), i < j →
      Safety.standing on.tables name first rs i.val = .select (some x) →
      Safety.standing on.tables name first rs j.val = .select (some y) → x.bound < y.bound) :
    Safety.Accepts on name first rs := ⟨hv, hn, fun _ => by decide, fun _ _ _ => on_notInUse _, hs⟩

/-- Two records of OUTPUT_MAP at its last entries, two of FILTER_SETS, and a rule; a fill of WEIGHTING, of LINK_CONFIG and of
REGIONS. -/
theorem witness_WriteAndFillEntries : Safety.StoresCanonical on ∧
    Safety.Accepts on .outputMap 30 [.outputMap (some 3), .outputMap none] ∧
    Safety.Accepts on .filterSets 6142 [.filter 1, .filter 0] ∧
    Safety.Accepts on .alarmRules 31 [.alarmRule { resetRuleRecord with enabled := true }] ∧
    Safety.Accepts on .weighting 0 (List.replicate 10 (.weighting 4194304)) ∧
    Safety.Accepts on .linkConfig 1 (List.replicate 3 (.linkConfig { mode := .convert, gp := 8, gi := 22 })) ∧
    Safety.Accepts on .regions 0 (List.replicate 32 (.region none)) := by
  refine ⟨on_storesCanonical, ?_, ?_, ?_, ?_, ?_, ?_⟩ <;>
    exact on_accepts _ _ _ (by decide +kernel) (by decide) (fun h => absurd h (by decide))
/-- Two enabled entries of SET_SELECT after the one that stands at reset, with rising bounds. -/
theorem witness_WriteAndFillEntries_select :
    Safety.Accepts on .setSelect 1 [.select (some { set := 1, bound := 8388609 }), .select (some { set := 2, bound := 37748735 })] := by
  refine on_accepts _ _ _ (by decide +kernel) (by decide) fun _ i j x y => ?_
  revert i j
  simp [Fin.forall_fin_succ, Safety.standing, entryOf, on, State.reset, resetState, resetTables]
  refine ⟨⟨?_, ?_⟩, ?_⟩ <;> (rintro rfl rfl; decide)

theorem witness_WriteAndFillEntries_codes : tableOf (2#8 : Byte).toNat = some .outputMap ∧ tableOf (6#8 : Byte).toNat = some .filterSets ∧
    tableOf (7#8 : Byte).toNat = some .setSelect ∧ banked .outputMap = true ∧ copying.tables.bankState ≠ .editing ∧
    [Record.outputMap (some 3)] ≠ [] ∧ 2 ≤ (0#8 : Byte).toNat * 256 + (1#8 : Byte).toNat + 1 ∧
    1 + 2 ≤ tableSize .setSelect := by decide +kernel
/-- Link A runs with set 0, and no other link has a set. -/
def usingSet0 : State := withTables (inMode .convert) (withCv fun c => { c with state := .locked, filter := some 0 })
theorem usingSet0_filters : ∀ l : LinkId, usingSet0.cv[l].filter = none ∨ usingSet0.cv[l].filter = some 0 := by decide +kernel

/-- Set 0 in use by Link A: entry 1,535 is the last of its coefficients, entry 1,536 the first of set 1. -/
theorem witness_WriteAndFillEntries_inUse :
    Safety.InUse usingSet0 1535 ∧ ¬ Safety.InUse usingSet0 1536 ∧ 1535 + 2 ≤ tableSize .filterSets ∧
    holdsAfter (exec .writeEntries (asked usingSet0 0x11#8 ([6#8, 5#8, 255#8] ++ recordBytes (.filter 1) ++ recordBytes (.filter 2)))) (fun t =>
      t.port.replies.map (·.payload) == [[5#8]]) = true := by
  refine ⟨⟨0, 0, .inl (by decide +kernel), by decide +kernel, by decide +kernel, by decide⟩, ?_, by decide, by decide +kernel⟩
  rintro ⟨l, set, -, -, hf, hs⟩
  rcases usingSet0_filters l with e | e <;> rw [e] at hf
  · exact absurd hf (by simp)
  · rw [← Option.some.inj hf] at hs; exact absurd hs (by decide)
-- R168: two records of PROGRAMMES, the first of a length of its own.
theorem test_writeTwoProgrammes :
    holdsAfter (exec .writeEntries (asked on 0x11#8 ([3#8, 0#8, 2#8] ++ recordBytes (.programme (some record0)) ++ recordBytes (.programme none))))
      (fun t => t.port.replies.map (·.payload) == [[0#8, 3#8, 0#8, 2#8, 0#8, 2#8]] &&
        (standbyBank t.tables).programmes[2] == some record0) = true := by decide +kernel

theorem witness_UnbankedTableRules : State.reset.modeOf 0 ≠ ({ mode := .convert, gp := 8, gi := 14 } : LinkConfig).mode ∧
    State.reset.modeOf 0 = ({ mode := .off, gp := 8, gi := 14 } : LinkConfig).mode ∧
    raised (withRule fun r => { r with state := .held }).alarm.rules[0].state = true ∧ raised on.alarm.rules[0].state = false ∧
    on.alarm.due = [] ∧ (withRule fun r => { r with state := .held }).alarm.due = [] ∧
    (∀ i : Fin 4, Record.valid (.select (#v[some { set := 0, bound := 8388608 }, none, none, none] : Vector (Option SelectEntry) 4)[i]) = true) := by
  decide +kernel
-- R169: a fill of one enabled SET_SELECT record over entries 1 and 2 from reset reports entry 2.
theorem test_fillSetSelect :
    holdsAfter (exec .fillEntries (asked on 0x12#8 ([7#8, 0#8, 1#8, 0#8, 1#8] ++ recordBytes (.select (some { set := 0, bound := 8388608 })))))
      (fun t => t.port.replies.map (·.payload) == [[4#8, 0#8, 2#8]]) = true := by decide +kernel

theorem witness_TakeCancelAndValidation : on.tables.bankState = .editing ∧ validate (standbyBank on.tables) = none ∧
    1 ≤ ((0#8 ++ 0#8 ++ 0#8 ++ 1#8 : Instant) - on.tb.hfc).toNat ∧ ((1#8 ++ 0#8 ++ 0#8 ++ 0#8 : Instant) - on.tb.hfc).toNat ≤ 16777216 ∧
    16777216 < ((1#8 ++ 0#8 ++ 0#8 ++ 1#8 : Instant) - on.tb.hfc).toNat ∧ copying.tables.bankState ≠ .editing ∧
    (armed 1#32).tables.bankState = .armed ∧ (armed 1#32).tables.pendingInstant = some 1#32 ∧
    (validate (standbyBank (withTables (fun t => { t with bank1 := { bank0 with slotMap := resetRouting.slotMap } }) on).tables)).isSome =
      true := by decide +kernel

/-- The active bank is sound, so are its lines, sources and sets. -/
theorem on_bankSound : Safety.BankSound on.active := by
  constructor
  · intro c p q r r' hp hq _ _
    have h : ∀ p : ProgId, p = 0 ∨ on.active.programmes[p] = none := by decide +kernel
    rcases h p with e | e <;> rcases h q with e' | e' <;> simp_all
  · decide +kernel

theorem witness_LiveAdjusts_delay : (0#8 : Byte) = BitVec.ofNat 8 (0 : ProgId).val ∧ copying.tables.bankState ≠ .editing ∧
    on.tables.bankState = .editing ∧ on.record 1 = none ∧ (standbyBank on.tables).programmes[1] = none ∧
    on.active.programmes[0] ≠ none ∧ record0.dt ≠ (0#8 : Byte).toNat * 256 + (200#8 : Byte).toNat ∧ Safety.BankSound on.active ∧
    record0.lists 0 = true ∧ on.regionOf 0 ≠ none ∧ on.lines[0].move = .idle :=
  ⟨by decide, by decide, by decide, rfl, rfl, by decide +kernel, by decide, on_bankSound, by decide, by decide +kernel, by decide +kernel⟩
/-- C0's line in each move at a delay of 10 on its way to 50. -/
def moving (x : Move) (mode : MoveMode) : State :=
  let s := withTables (fun t => { t with bank0 := { bank0 with programmes := resetRouting.programmes.set 0 (some { record0 with dt := 50, moveMode := mode }) } }) on
  s.setLine 0 { s.lines[0] with cur := 10, tgt := 50, move := x, slew := 3, g := 40 }

/-- SET DELAY to `d` takes the line to this move, target and slew count. -/
def delayed (s : State) (d : Byte) (x : Move) (tgt slew : Nat) : Bool :=
  holdsAfter (exec .setDelay (asked s 0x20#8 [0#8, 0#8, d])) fun t =>
    t.lines[0].move == x && t.lines[0].tgt == tgt && t.lines[0].slew == slew && t.lines[0].cur == 10

-- R65, R67, R68: a move in flight meets a new D_t under each move mode; an equal D_t and a channel that is no member.
theorem witness_LiveAdjusts_moves :
    delayed (moving .slew .slew) 200#8 .slew 200 3 = true ∧ delayed (moving .slew .slew) 10#8 .idle 10 0 = true ∧
    delayed (moving .slew .cut) 200#8 .cutFall 200 0 = true ∧ delayed (moving .cutFall .slew) 200#8 .cutFall 200 3 = true ∧
    delayed (moving .cutRise .slew) 200#8 .cutRise 200 3 = true ∧ delayed (moving .cutRise .cut) 200#8 .cutFall 200 3 = true ∧
    delayed (moving .slew .slew) 50#8 .slew 50 3 = true ∧ record0.lists 1 = false ∧
    (moving .slew .slew).record 0 = some { record0 with dt := 50 } := by decide +kernel
theorem witness_LiveAdjusts_targetAndTrim : ((255#8 ++ 26#8 : BitVec 16).toInt = -230) ∧ ((0#8 ++ 0#8 : BitVec 16).toInt = 0) ∧
    ((0x7F#8 ++ 255#8 : BitVec 16).toInt = 32767) ∧ on.tables.bankState = .editing ∧ copying.tables.bankState ≠ .editing ∧
    on.active.programmes[0] ≠ none := by decide +kernel
theorem witness_MuteAndUnmute : on.record 0 ≠ none ∧ on.record 1 = none ∧ on.gain[0].command = false ∧
    (withGain fun g => { g with command := true }).gain[0].command = true ∧
    (withGain fun g => { g with command := true }).record 0 ≠ none := by decide +kernel
theorem witness_AlarmCommands_ack : (withRule fun r => { r with state := .active }).alarm.rules[0].state = .active ∧
    on.alarm.rules[0].state = .quiet ∧ (withRule fun r => { r with state := .held }).alarm.rules[0].state = .held ∧
    32 ≤ (32#8 : Byte).toNat ∧ (254#8 : Byte).toNat ≤ 254 ∧
    (withRule fun r => { r with state := .easing }).alarm.rules[0].state = .easing ∧
    (withRule fun r => { r with state := .onset }).alarm.rules[0].state = .onset := by decide +kernel
-- R129, R136: ALL clears the held rules in ascending number, each with its notice.
theorem witness_AlarmCommands_all :
    let s := (withRule fun r => { r with state := .held }).setRule 4 { on.alarm.rules[4] with state := .held }
    holdsAfter (exec .ackAlarm (asked (s.setRule 2 { on.alarm.rules[2] with state := .easing }) 0x30#8 [255#8])) (fun t =>
      t.port.notices.map (·.rule) == [0, 4] && t.port.replies.map (·.payload) == [[0#8, 2#8, 1#8]] && t.alarm.rules[2].ack) =
      true := by decide +kernel
theorem witness_AlarmCommands_enable : on.tables.ruleRecords[0].enabled = false ∧
    (dueRule .raising .mute false).tables.ruleRecords[0].enabled = true ∧
    (let s : State := { dueRule .timerOut .backup false with alarm := { (dueRule .timerOut .backup false).alarm with due := [] } }
     s.alarm.due = [] ∧ raised s.alarm.rules[0].state = true ∧ s.tables.ruleRecords[0].enabled = true ∧
     raised s.alarm.rules[1].state = false ∧
     holdsAfter (exec .disableRule (asked s 0x32#8 [0#8])) (fun t =>
       t.sources[0] == .pending && t.port.notices.map (·.event) == [.cleared]) = true) := by decide +kernel
theorem witness_RestorePrimaryRule : (0#8 ++ 0#8 ++ 0#8 ++ 0#8 : BitVec 32) = 0#32 ∧ (128#8 ++ 0#8 ++ 0#8 ++ 1#8 : BitVec 32) ≠ 0#32 := by
  decide
/-- C0 in BACKUP goes back, its line falls, and the reply names it. -/
theorem witness_RestorePrimaryRule_line :
    holdsAfter (exec .restorePrimary (asked (dueRule .timerOut .backup false) 0x38#8 [0#8, 0#8, 0#8, 1#8])) (fun t =>
      t.lines[0].move == .cutFall && t.port.replies.map (·.payload) == [[0#8, 0#8, 0#8, 0#8, 1#8]]) = true := by decide +kernel
theorem witness_ResetIntegratorAndReadContext : on.record 0 ≠ none ∧ on.record 1 = none ∧
    ¬ ((7 : ProgId).val = 7 ∧ ∀ q : ProgId, on.record q ≠ none) ∧
    (∀ q : ProgId, (withTables (fun t => { t with bank0 := { t.bank0 with programmes := Vector.replicate 8 (some record0) } }) on).record q ≠
      none) := by decide +kernel
/-- A context of a programme with this many members. -/
def ctx (members sum : Nat) : Context :=
  { members := members, sum := sum, count := 1, p1 := 4260607557632, p2 := 0, p3 := 0, p4 := 0, pair := 0 }
/-- The premises at their boundaries: member counts 1 and 8 are sized, 0 and 9 are not; the greatest power and sum apply. -/
theorem witness_LoadContextAppliesARecord : (∀ n ∈ [0, 1, 8, 9], (ctx n 4260607557632).members < 2 ^ 4 ∧
      (1 ≤ (ctx n 0).members ∧ (ctx n 0).members ≤ 8 ↔ n = 1 ∨ n = 8)) ∧
    (ctx 1 4260607557632).sum < 2 ^ 58 ∧ (ctx 1 0).p1 < 2 ^ 42 ∧ on.record 0 = some record0 ∧
    record0.members.length = (ctx 1 0).members ∧ (ctx 1 4260607557632).sum ≤ (ctx 1 0).count * 4260607557632 ∧
    ¬ (ctx 1 4260607557633).sum ≤ (ctx 1 0).count * 4260607557632 ∧ on.record 1 = none := by decide +kernel
/-- No record, nine, a record cut short, a member count of 9; three records for P2, P1 and P0: skipped, passed over, applied. -/
theorem witness_LoadContextAppliesARecord_lists :
    let after (payload : List Byte) (f : State → Bool) : Bool := holdsAfter (exec .loadContext (asked on 0x42#8 payload)) f
    let answers (reply : List Byte) (t : State) : Bool := t.port.replies.map Message.payload == [reply]
    after [] (answers [1#8]) = true ∧ after (List.replicate 9 127#8) (answers [1#8]) = true ∧
    after (0#8 :: (contextBytes (ctx 1 0)).take 32) (answers [1#8]) = true ∧ after (contextBytes (ctx 9 0)) (answers [4#8]) = true ∧
    after (contextBytes (ctx 8 0) ++ [127#8] ++ contextBytes (ctx 1 7))
      (fun t => answers [0#8, 1#8, 1#8] t && t.loud[0].sum == 7 && t.gain[0].tgt == -120 && t.loud[1] == on.loud[1]) = true := by
  decide +kernel
theorem witness_ResetDomainsParts : (31 : Nat) < (32#8 : Byte).toNat ∧ 1 ≤ (1#8 : Byte).toNat ∧ (16#8 : Byte).toNat ≤ 31 ∧
    on.record 0 ≠ none ∧ (0x1F#8 : Byte).toNat.testBit 0 = true ∧ (2#8 : Byte).toNat.testBit 1 = true ∧
    (4#8 : Byte).toNat.testBit 2 = true ∧ (8#8 : Byte).toNat.testBit 3 = true ∧ (16#8 : Byte).toNat.testBit 4 = true ∧
    (15#8 : Byte).toNat.testBit 4 = false := by decide +kernel
/-- A switched channel, a reason held, a message in progress on the framed management link: the premises of each part. -/
def beforeReset : State :=
  let s := dueRule .timerOut .backup false
  { (s.setGain 0 { s.gain[0] with reasons := 1#32 }).setRx 0 { s.rx[0] with state := .framed } with
      port := { s.port with assembler := { idleAssembler with collecting := true, quiet := 63 } } }
theorem witness_ResetDomainsParts_premises : hasMember beforeReset.alarm.rules[0].switched (0 : ChannelId) = true ∧
    hasMember beforeReset.alarm.rules[0].muted (0 : ProgId) = true ∧ beforeReset.record 0 ≠ none ∧
    beforeReset.rx[beforeReset.port.mlk].state = .framed ∧ beforeReset.port.assembler.collecting = true ∧
    beforeReset.port.assembler.quiet < 64 ∧ beforeReset.cv[1].state ≠ .dark ∧ beforeReset.cv[0].state = .dark ∧
    on.port.assembler.collecting = false ∧ Safety.revertedSource beforeReset 0 = .pending ∧ beforeReset.sources[0] = .backup := by
  decide +kernel
-- R28, R138, R176: LINKS and ALARMS in either order leave C0 in PRIMARY with empty sets and no reason held.
theorem test_resetLinksAndAlarms : ∀ t ∈ [beforeReset.resetLinks.resetAlarms, beforeReset.resetAlarms.resetLinks],
    t.sources[0] = .primary ∧ t.alarm.rules[0] = quietRule ∧ t.gain[0].reasons = 0#32 ∧ t.lines[0].move = .cutFall ∧
      t.port.errors.linkLoss = 1 ∧ t.port.assembler.collecting = false := by decide +kernel

/-! ### Witnesses: arithmetic, encodings and invariants -/

theorem witness_RawLevelConversion : 2 ^ 0 ≤ 1 ∧ 1 < 2 ^ (0 + 1) ∧ 2 ^ 41 ≤ 31 * 2 ^ 37 ∧ 31 * 2 ^ 37 < 2 ^ (41 + 1) ∧
    (boundaryLoud record0 1 { history := [1, 1, 1], window := none, sum := 0, count := 0 }).window ≠ none := by decide +kernel
theorem witness_MultiplierOfAppliedGain : (-400 : Int) ≤ -400 ∧ (-400 : Int) ≤ 120 ∧ (-400 : Int) ≤ 120 ∧ (120 : Int) ≤ 120 := by decide
theorem witness_TakeCancelAndValidation_checks : validate on.active = none ∧ validate { on.active with slotMap := resetRouting.slotMap } ≠ none ∧
    on.active.programmes[(0 : ProgId)] = some record0 ∧ record0.lists 0 = true ∧
    (∀ b ∈ [{ bank0 with programmes := bank0.programmes.set 1 (some record0) },
            { bank0 with regions := bank0.regions.set 1 (some { base := 0, count := 1 }) },
            { bank0 with slotMap := resetRouting.slotMap }], (validate b).isSome = true) := by decide +kernel
theorem witness_ReachedTestAndCheckByte : 1 ≤ ((1#32 : Instant) - 0#32).toNat ∧
    ((2147483647#32 : Instant) - 0#32).toNat ≤ 2147483647 := by decide
theorem witness_DelayStoreReadsWhatIsWritten : cellsWf 0#24 [(3, 1#24)] = true ∧
    ({ resetLine with wptr := 1023 } : Line).wptr < ({ base := 0, count := 1 } : Region).count * 1024 ∧ resetLine.v = 0 ∧
    1023 < ({ base := 0, count := 1 } : Region).count * 1024 := by decide
/-- A line that has been fed 7 and 8 reads 8 at distance 1, 7 at distance 2 and silence at distance 3. -/
theorem witness_DelayStoreReadsWhatIsWritten_priming :
    let r : Region := { base := 0, count := 1 }
    let fed := [7#24, 8#24].foldl (fun (a : Cells Sample × Line) x => (writeLine a.1 (some r) a.2 x, accessLine (some r) a.2))
      ([], { resetLine with wptr := 1023 })
    [0, 1, 2, 3].map (readLine fed.1 r fed.2.wptr (countedDepth (some r) fed.2.v) 9#24) = [9#24, 8#24, 7#24, 0#24] := by
  decide +kernel
/-- The line output without a region, in a step frame at half fader, and in a step frame at the full one: the floor mean of −3
and 8 is 2, and half of it 1. -/
theorem witness_DelayStoreReadsWhatIsWritten_output :
    let r : Region := { base := 0, count := 1 }
    let m : Cells Sample := [(4, 8#24), (5, BitVec.ofInt 24 (-3))]
    let l : Line := { resetLine with wptr := 6, v := 1024, readAt := 1, readAlso := some 2 }
    cellsWf 0#24 m = true ∧ lineOutput m none l 9#24 = 9#24 ∧ lineOutput m (some r) l 9#24 = 2#24 ∧
    lineOutput m (some r) { l with g := 32 } 9#24 = 1#24 ∧ lineOutput m (some r) { l with readAlso := none } 9#24 = BitVec.ofInt 24 (-3) := by
  decide +kernel
/-- A frame of C0 with a region, at V below its length and at it, and of C1 without one. -/
theorem witness_MeasurementTapAndLineAccess : ∀ v ∈ [1023, 1024],
    let s : State := settled.setLine 0 { settled.lines[0] with v := v }
    s.tb.boundary = some 524288 ∧ settleTimebase s.tb = s.tb ∧ s.settleFrame = s ∧ s.regionOf 0 = some { base := 0, count := 1 } ∧
    s.regionOf 1 = none ∧ s.lines[0].wptr < 1 * 1024 ∧ cellsWf 0#24 s.store = true ∧ cellsWf 0 s.tables.filters = true := by
  decide +kernel
/-- C0's line as the next frame begins: in a slew, with the slew's last step made, in a fall at 1 and at 0, in a rise at 63. -/
theorem witness_MeasurementTapAndLineAccess_moves :
    let s (x : Move) (cur g : Nat) : State := settled.setLine 0
      { settled.lines[0] with cur := cur, tgt := 9, readAt := cur, move := x, slew := 2, g := g }
    (∀ y ∈ [(Move.slew, 8, 64), (.slew, 9, 64), (.cutFall, 8, 1), (.cutFall, 8, 0), (.cutRise, 9, 63)],
      (s y.1 y.2.1 y.2.2).tb.boundary = some 524288 ∧ (s y.1 y.2.1 y.2.2).settleFrame = s y.1 y.2.1 y.2.2) ∧
    holdsAfter (exec .houseFrame (s .slew 8 64)) (fun t => t.lines[0].slew == 3) = true ∧
    holdsAfter (exec .houseFrame (s .slew 9 64)) (fun t => t.lines[0].move == .idle && t.lines[0].slew == 0) = true ∧
    holdsAfter (exec .houseFrame (s .cutFall 8 1)) (fun t => t.lines[0].g == 0 && !t.lines[0].jumpDue) = true ∧
    holdsAfter (exec .houseFrame (s .cutFall 8 0)) (fun t => t.lines[0].jumpDue) = true ∧
    holdsAfter (exec .houseFrame (s .cutRise 9 63)) (fun t => t.lines[0].g == 64) = true := by decide +kernel
theorem witness_FrameAndRecordRoundTrips : frame5.wellFormed = true ∧ (Record.region (some { base := 1023, count := 1 })).valid = true ∧
    (Record.programme (some record0)).valid = true := by decide +kernel

/-- The state after reset meets every invariant's premise, and the step on an empty queue answers it. -/
theorem witness_step : step State.reset = .next State.reset := rfl
theorem witness_StepKeepsQueuesBounded : Safety.QueuesBounded State.reset ∧ Safety.GainQueuesBounded State.reset :=
  ⟨⟨by decide, by decide, by decide, by decide⟩, fun p =>
    (by decide +kernel : ∀ p : ProgId, State.reset.gain[p].queue.length ≤ 4) p⟩
theorem witness_StepKeepsGainInLimits : Safety.GainInLimits on := by
  intro p r h
  have h0 : ∀ p : ProgId, on.record p = none ∨ (on.record p = some record0 ∧ on.gain[p].tgt = 0) := by decide +kernel
  rcases h0 p with e | ⟨e, ht⟩
  · rw [e] at h; simp at h
  · rw [e] at h; simp at h; subst h; rw [ht]; decide
theorem witness_StepKeepsRegionsAndStores : Safety.RegionsFit on ∧ Safety.StoresCanonical on :=
  ⟨on_regionsFit, by decide +kernel, by decide +kernel⟩
theorem witness_StepKeepsLinesInRegions : Safety.LinesInRegions on := fun c =>
  (by decide +kernel : ∀ c : ChannelId, on.lines[c].cur ≤ regionLength (on.regionOf c) - 1 ∧
    on.lines[c].tgt ≤ regionLength (on.regionOf c) - 1) c
theorem witness_StepKeepsBanksSound : Safety.BanksSound on :=
  ⟨on_bankSound, fun h => absurd h (by decide)⟩
theorem witness_StepKeepsSourcesSound : Safety.SourcesSound on := by
  have h : ∀ c : ChannelId, on.sources[c] = .primary := by decide +kernel
  have h2 : ∀ (r : RuleId) (c : ChannelId), hasMember on.alarm.rules[r].switched c = false := by decide +kernel
  refine ⟨fun c hc => absurd (h c) hc, fun r c hc => ?_, fun r q c hc _ => ?_⟩ <;> exact absurd hc (by rw [h2 r c]; decide)
theorem witness_StepKeepsReasonsSound : Safety.ReasonsSound on := by
  have h : ∀ (r : RuleId) (p : ProgId), hasMember on.alarm.rules[r].muted p = false := by decide +kernel
  have h2 : ∀ (r : RuleId) (p : ProgId), hasMember on.gain[p].reasons r = false := by decide +kernel
  refine ⟨fun r p hc => absurd hc (by rw [h r p]; decide), fun r p _ => ?_, fun d hd => ?_, ?_⟩
  · rw [h2 r p]; exact (h r p).symm
  · rw [show on.alarm.due = [] from rfl] at hd; exact absurd hd (by simp)
  · rw [show on.alarm.due = [] from rfl]; simp

/-- At the boundary, with one full power in the history and the integrator past a halving. -/
def measuring : State := deciding record0 [2 ^ 34] (32769 * 4260607557632) 32768 []

theorem measuring_members (b : Routing) (h : ∀ p : ProgId, b.programmes[p] = none ∨ b.programmes[p] = some record0) :
    Safety.MembersInRange b := by
  intro p r hr
  rcases h p with e | e <;> rw [e] at hr <;> simp at hr
  subst hr; decide

theorem witness_StepKeepsIntegratorsBounded : Safety.MeasurementBounded measuring ∧ Safety.IntegratorsBounded measuring := by
  refine ⟨⟨by decide +kernel, fun c => ?_, fun p x hx => ?_, measuring_members _ fun p => ?_, measuring_members _ fun p => ?_⟩, fun p => ?_⟩
  · exact (by decide +kernel : ∀ c : ChannelId,
      measuring.meas[c].building.acc ≤ (if measuring.frame.boundaryDue then sliceLength measuring.tb.rate96 else measuring.tb.phase) * 2 ^ 34 ∧
        measuring.meas[c].latest.ms ≤ 2 ^ 34) c
  · exact (by decide +kernel : ∀ p : ProgId, ∀ x ∈ measuring.loud[p].history, x ≤ largestPower) p x hx
  · exact (by decide +kernel : ∀ p : ProgId, measuring.tables.bank0.programmes[p] = none ∨
      measuring.tables.bank0.programmes[p] = some record0) p
  · exact (by decide +kernel : ∀ p : ProgId, measuring.tables.bank1.programmes[p] = none ∨
      measuring.tables.bank1.programmes[p] = some record0) p
  · exact (by decide +kernel : ∀ p : ProgId, measuring.loud[p].count ≤ 65535 ∧ measuring.loud[p].sum ≤
      measuring.loud[p].count * largestPower + (if measuring.loud[p].count < 32768 then 0 else largestPower)) p

end Sys2Proof.Tests
end

section
/-! PROOF. The log conversion (R87): the position of the leading one, the place in the log table, the rounded level and its
bounds; the levels of a window and of the integrator. -/

namespace Sys2Proof.Machine

/-- The search from bit k downward finds the leading one, wherever it stands at or below k. -/
theorem leadingOne_eq_log2 {p : Nat} (hp : p ≠ 0) : ∀ {k : Nat}, p.log2 ≤ k → leadingOne k p = p.log2
  | 0, hk => (Nat.le_zero.mp hk).symm
  | k + 1, hk => by
    rw [leadingOne]
    split
    case isTrue h => exact le_antisymm ((Nat.le_log2 hp).mpr h) hk
    case isFalse h => exact leadingOne_eq_log2 hp (Nat.le_of_lt_succ (by rwa [← Nat.le_log2 hp, not_le] at h))

theorem mantissa_lt_length (p e : Nat) : mantissa p e < logTable.length := by
  unfold mantissa
  split <;> exact Nat.mod_lt _ (by decide)

/-- Every value that the log conversion reads is an entry of the table. -/
theorem logTable_mantissa (p e : Nat) :
    logTable[mantissa p e]? = some (logTable.getD (mantissa p e) 0) := by
  simp [List.getD, mantissa_lt_length p e]

theorem logTable_getD_le (m : Nat) : logTable.getD m 0 ≤ 250 := by
  rw [List.getD_eq_getElem?_getD]
  cases h : logTable[m]? with
  | none => exact Nat.zero_le _
  | some t => exact (by decide : ∀ t ∈ logTable, t ≤ 250) t (List.mem_of_getElem? h)

theorem roundDiv_mono {a b : Int} {d : Nat} (hd : 0 < d) (h : a ≤ b) : roundDiv a d ≤ roundDiv b d :=
  Int.ediv_le_ediv (by omega) (by omega)

@[simp] theorem rawLevel_zero : rawLevel 0 = -1200 := rfl

/-- The raw level of a nonzero 64-bit power, by the position of its leading one. -/
theorem rawLevel_eq_roundDiv {p : Nat} (hp : p ≠ 0) (hlog : p.log2 ≤ 63) :
    rawLevel p = roundDiv ((256 * ((p.log2 : Int) - 34) + logTable.getD (mantissa p p.log2) 0) * 30103) 256000 := by
  rw [rawLevel, if_neg hp, leadingOne_eq_log2 hp hlog]

/-- The level lies between that of X = 256 × (0 − 34) and that of X = 256 × (41 − 34) + 250. -/
theorem rawLevel_bounds {p : Nat} (hp : p ≠ 0) (h : p < 2 ^ 42) : -1024 ≤ rawLevel p ∧ rawLevel p ≤ 240 := by
  have hlog : p.log2 < 42 := (Nat.log2_lt hp).mpr h
  have hentry := logTable_getD_le (mantissa p p.log2)
  rw [rawLevel_eq_roundDiv hp (by omega)]
  constructor
  · calc (-1024 : Int) = roundDiv (256 * (0 - 34) * 30103) 256000 := by decide
      _ ≤ _ := roundDiv_mono (by decide) (by omega)
  · calc _ ≤ roundDiv ((256 * (41 - 34) + 250) * 30103) 256000 := roundDiv_mono (by decide) (by omega)
      _ = 240 := by decide

/-- A window that a boundary forms has the raw level of its power (R89, R90). -/
theorem boundaryLoud_window_raw {r : ProgRecord} {p : Nat} {l : Loud} {w : Window}
    (h : (boundaryLoud r p l).window = some w) : w.raw = rawLevel w.power := by
  simp only [boundaryLoud] at h
  split at h
  case isTrue => cases h
  case isFalse => cases h; rfl

/-- The integrated level of an integrator with C above 0 (R92). -/
theorem integratedLevel_succ (sum count : Nat) (offset : Int) :
    integratedLevel sum (count + 1) offset = some (rawLevel (sum / (count + 1)) + offset) := rfl

/-- Settles O46: the leading one of a power is its base-2 logarithm, which fixes its place in the table; the bounds hold since
the rounding is monotone. -/
theorem rawLevelConversion : Obligations.RawLevelConversion := by
  refine ⟨rawLevel_zero, fun p e hlo hhi he => ?level, rfl, by decide, by decide,
    fun p hp => rawLevel_bounds hp.ne', fun _ _ _ _ => boundaryLoud_window_raw, integratedLevel_succ⟩
  have hp : p ≠ 0 := by have := Nat.two_pow_pos e; omega
  obtain rfl : p.log2 = e := (Nat.log2_eq_iff hp).mpr ⟨hlo, hhi⟩
  exact ⟨_, logTable_mantissa p p.log2, rawLevel_eq_roundDiv hp (by omega)⟩

end Sys2Proof.Machine
end

section
/-! PROOF. The multiplier (R108): the entries of the coarse and the fine table are the rounded powers of ten, and M is their
rounded product. -/

namespace Sys2Proof.Machine

/-- c = round(2^20 × 10^((k − 40)/20)), both bounds raised to the power 20 and cleared of 10^(−40) (R108). -/
def CoarseRounded (k c : Nat) : Prop :=
  (2 * c - 1) ^ 20 * 10 ^ 40 ≤ 2 ^ 420 * 10 ^ k ∧ 2 ^ 420 * 10 ^ k < (2 * c + 1) ^ 20 * 10 ^ 40

/-- f = round(2^22 × 10^(b/200)), both bounds raised to the power 200 (R108). -/
def FineRounded (b f : Nat) : Prop :=
  (2 * f - 1) ^ 200 ≤ 2 ^ 4600 * 10 ^ b ∧ 2 ^ 4600 * 10 ^ b < (2 * f + 1) ^ 200

theorem coarseTable_rounded : ∀ k < 53, CoarseRounded k (coarseTable.getD k 0) := by
  unfold CoarseRounded
  decide +kernel

theorem fineTable_rounded : ∀ b < 10, FineRounded b (fineTable.getD b 0) := by
  unfold FineRounded
  decide +kernel

/-- On naturals round(n / d) is the floor of (2n + d) / 2d. -/
theorem roundDiv_natCast (n d : Nat) : (roundDiv n d).toNat = (2 * n + d) / (2 * d) := by
  have hcast : roundDiv n d = (((2 * n + d) / (2 * d) : Nat) : Int) := by simp [roundDiv]
  rw [hcast, Int.toNat_natCast]

/-- M is the rounded product of a coarse and a fine entry (R108). -/
theorem multiplier_eq_rounded_product (x : Int) :
    multiplier x = (2 * (coarseTable.getD (x / 10 + 40).toNat 0 * fineTable.getD (x - 10 * (x / 10)).toNat 0) + 1048576) /
      2097152 := by
  rw [multiplier, roundDiv_natCast, Int.emod_def]

/-- Settles O48: A from −400 to +120 reads entries that exist, which are the rounded powers. -/
theorem multiplierOfAppliedGain : Obligations.MultiplierOfAppliedGain := by
  refine ⟨fun x hlo hhi => ?product, by decide, by decide, by decide, by decide, by decide⟩
  obtain ⟨hcoarseLo, hcoarseHi⟩ := coarseTable_rounded (x / 10 + 40).toNat (by omega)
  obtain ⟨hfineLo, hfineHi⟩ := fineTable_rounded (x - 10 * (x / 10)).toNat (by omega)
  exact ⟨_, _, hcoarseLo, hcoarseHi, hfineLo, hfineHi, multiplier_eq_rounded_product x⟩

end Sys2Proof.Machine
end

section
/-! PROOF. MUTE and UNMUTE (R112): the programme that the payload names, the refusal of an absent one, and COMMAND set in a
gain state with the reply that follows. -/

namespace Sys2Proof.Machine

/-! ### The payload that names a programme -/

@[simp] theorem byteAt_progByte (p : ProgId) : byteAt [BitVec.ofNat 8 p.val] 0 = p.val := by
  simp only [byteAt, List.getD_cons_zero, BitVec.toNat_ofNat]
  omega

@[simp] theorem progOf_val (p : ProgId) : progOf p.val = p := Fin.ofNat_val_eq_self p

theorem prog_not_above_seven (p : ProgId) : ¬ 7 < p.val := by omega

/-! ### COMMAND in a reason set -/

theorem State.setGain_unchanged (s : State) (p : ProgId) : s.setGain p s.gain[p] = s := by
  simp [State.setGain]

/-- Writing COMMAND as it stands already changes nothing. -/
theorem State.setGain_command_same (s : State) (p : ProgId) {on : Bool} (h : s.gain[p].command = on) :
    s.setGain p { s.gain[p] with command := on } = s := by
  subst h
  exact s.setGain_unchanged p

/-- COMMAND added: the programme is muted, whatever else its reason set holds (R112, R178). -/
theorem State.setCommand_true (s : State) (p : ProgId) :
    s.setCommand p true =
      (s.setGain p { s.gain[p] with command := true }, [0#8, BitVec.ofNat 8 p.val, 1#8]) := by
  simp [State.setCommand, mutedGain, okReply, statusByte, beBytes, flag]

/-- COMMAND removed: the programme stays muted exactly while rule numbers are left (R112, R178). -/
theorem State.setCommand_false (s : State) (p : ProgId) :
    s.setCommand p false =
      (s.setGain p { s.gain[p] with command := false },
        [0#8, BitVec.ofNat 8 p.val, if s.gain[p].reasons = 0#32 then 0#8 else 1#8]) := by
  by_cases hreasons : s.gain[p].reasons = 0#32 <;>
    simp_all [State.setCommand, mutedGain, okReply, statusByte, beBytes, flag]

/-! ### The two commands, by the active record -/

theorem State.mute_eq (s : State) (p : ProgId) :
    s.mute [BitVec.ofNat 8 p.val] = if s.record p = none then (s, [9#8]) else s.setCommand p true := by
  simp [State.mute, prog_not_above_seven, State.present, State.refuse, refusal, statusByte]

theorem State.unmute_eq (s : State) (p : ProgId) :
    s.unmute [BitVec.ofNat 8 p.val] = if s.record p = none then (s, [9#8]) else s.setCommand p false := by
  simp [State.unmute, prog_not_above_seven, State.present, State.refuse, refusal, statusByte]

theorem State.takeCommand_record (s : State) (rest : List Message) (p : ProgId) :
    (s.takeCommand rest).record p = s.record p := rfl

theorem exec_mute (s : State) : exec .mute s = .next (s.execute (isCode 0x28) State.mute) := rfl

theorem exec_unmute (s : State) : exec .unmute s = .next (s.execute (isCode 0x29) State.unmute) := rfl

section
variable {s : State} {m : Message} {rest : List Message} {p : ProgId}

theorem exec_mute_absent (h : Safety.Ready s m rest 0x28#8) (hm : m.payload = [BitVec.ofNat 8 p.val])
    (hp : s.record p = none) : exec .mute s = .next ((s.takeCommand rest).answer m [9#8]) := by
  rw [exec_mute, execute_ready h rfl, hm, State.mute_eq, State.takeCommand_record, if_pos hp]

theorem exec_mute_present (h : Safety.Ready s m rest 0x28#8) (hm : m.payload = [BitVec.ofNat 8 p.val])
    (hp : s.record p ≠ none) :
    exec .mute s = .next (((s.takeCommand rest).setGain p { s.gain[p] with command := true }).answer m
      [0#8, BitVec.ofNat 8 p.val, 1#8]) := by
  rw [exec_mute, execute_ready h rfl, hm, State.mute_eq, State.takeCommand_record, if_neg hp, State.setCommand_true]
  rfl

theorem exec_unmute_absent (h : Safety.Ready s m rest 0x29#8) (hm : m.payload = [BitVec.ofNat 8 p.val])
    (hp : s.record p = none) : exec .unmute s = .next ((s.takeCommand rest).answer m [9#8]) := by
  rw [exec_unmute, execute_ready h rfl, hm, State.unmute_eq, State.takeCommand_record, if_pos hp]

theorem exec_unmute_present (h : Safety.Ready s m rest 0x29#8) (hm : m.payload = [BitVec.ofNat 8 p.val])
    (hp : s.record p ≠ none) :
    exec .unmute s = .next (((s.takeCommand rest).setGain p { s.gain[p] with command := false }).answer m
      [0#8, BitVec.ofNat 8 p.val, if s.gain[p].reasons = 0#32 then 0#8 else 1#8]) := by
  rw [exec_unmute, execute_ready h rfl, hm, State.unmute_eq, State.takeCommand_record, if_neg hp, State.setCommand_false]
  rfl

end

/-- Settles O40: the bank's record decides whether the command is refused, and COMMAND written as it stands changes nothing. -/
theorem muteAndUnmute : Obligations.MuteAndUnmute := by
  intro s m rest p a ha hm
  subst ha
  have hsame {on : Bool} (h : s.gain[p].command = on) :
      (s.takeCommand rest).setGain p { s.gain[p] with command := on } = s.takeCommand rest :=
    State.setGain_command_same (s.takeCommand rest) p h
  refine ⟨fun h => ⟨exec_mute_present h hm, fun hp hc => ?muted, exec_mute_absent h hm⟩,
    fun h => ⟨exec_unmute_present h hm, fun hp hc => ?unmuted, exec_unmute_absent h hm⟩⟩
  case muted => rw [exec_mute_present h hm hp, hsame hc]
  case unmuted => rw [exec_unmute_present h hm hp, hsame hc]

end Sys2Proof.Machine
end

section
/-! PROOF. What every step keeps, said once: a property of states that each block's own update keeps is kept by every step. The
updates are listed in `KeptByBlocks`, with the side condition under which the model makes each of them. -/

namespace Sys2Proof.Machine

/-! ### The side conditions of the updates -/

/-- The state with another list of rules due (log entry 12). -/
def State.setDue (s : State) (ds : List DueRule) : State := s.setAlarm { s.alarm with due := ds }

/-- The state with the frame in progress marked a slice boundary exactly at phase 0, as `State.latchFrame` marks it (R3). -/
def State.markBoundary (s : State) : State := s.setFrame { s.frame with boundaryDue := s.tb.phase == 0 }

/-- Every management queue of the port is within its capacity (R137, R156, R157, R159). -/
def PortBounded (p : Port) : Prop :=
  p.relay.length ≤ 8 ∧ p.commands.length ≤ 4 ∧ p.replies.length ≤ 8 ∧ p.notices.length ≤ 16

/-- Every region of both banks lies inside the delay store (R57). -/
def TablesFit (t : Tables) : Prop :=
  ∀ (c : ChannelId) (r : Region), t.bank0.regions[c] = some r ∨ t.bank1.regions[c] = some r → r.base + r.count ≤ 1024

/-- What a programme's gain and its measurement read of its record: the members and the limits of its gain. -/
def limits (r : ProgRecord) : List Member × Nat × Nat := (r.members, r.cutMax, r.boostMax)

/-- The tables `t` may take the place of those of the state: the active bank keeps its sources, regions, members and limits,
a rule that is raised its action, and what the tables satisfied stands. -/
structure TablesKept (s : State) (t : Tables) : Prop where
  slotMap : (activeBank t).slotMap = s.active.slotMap
  regions : (activeBank t).regions = s.active.regions
  records : ∀ p : ProgId, (activeBank t).programmes[p].map limits = (s.record p).map limits
  actions : ∀ r : RuleId,
    t.ruleRecords[r].action = s.tables.ruleRecords[r].action ∨ raised s.alarm.rules[r].state = false
  fits : TablesFit s.tables → TablesFit t
  filters : cellsWf 0 s.tables.filters = true → cellsWf 0 t.filters = true
  members : Safety.MembersInRange s.tables.bank0 ∧ Safety.MembersInRange s.tables.bank1 →
    Safety.MembersInRange t.bank0 ∧ Safety.MembersInRange t.bank1
  armed : Safety.BanksSound s → t.bankState = .armed → Safety.BankSound (standbyBank t)

/-- The line `x` lies below `n` where the line `l` does. -/
def LineKept (n : Nat) (l x : Line) : Prop := l.cur ≤ n → l.tgt ≤ n → x.cur ≤ n ∧ x.tgt ≤ n

/-- The gain lies within the limits of the record (R106). -/
def InLimits (r : ProgRecord) (x : Int) : Prop := -(r.cutMax : Int) ≤ x ∧ x ≤ r.boostMax

/-- The gain state `x` of a programme with record `r` keeps the reasons of `g`, its queue's capacity and its limits. -/
def GainKept (r : ProgRecord) (g x : Gain) : Prop :=
  x.reasons = g.reasons ∧ (g.queue.length ≤ 4 → x.queue.length ≤ 4) ∧ (InLimits r g.tgt → InLimits r x.tgt)

/-- The powers of a history are those of programmes (R89). -/
def HistoryBounded (l : Loud) : Prop := ∀ x ∈ l.history, x ≤ largestPower

/-- The integrator's bounds of one programme (R92, R97). -/
def IntegratorBounded (l : Loud) : Prop :=
  l.count ≤ 65535 ∧ l.sum ≤ l.count * largestPower + (if l.count < 32768 then 0 else largestPower)

/-- The loudness state `x` keeps the bounds of `l`. -/
def LoudKept (l x : Loud) : Prop :=
  (HistoryBounded l → HistoryBounded x) ∧ (IntegratorBounded l → IntegratorBounded x)

/-- The rule state `x` holds what `y` held, and is raised as it was; or it holds no programme and is not raised. -/
def RuleKept (y x : Rule) : Prop :=
  x.muted = y.muted ∧ x.switched = y.switched ∧
    (raised x.state = raised y.state ∨ (y.muted = 0#8 ∧ raised x.state = false))

/-- No switched set holds the channel. -/
def Unswitched (s : State) (c : ChannelId) : Prop := ∀ r : RuleId, hasMember s.alarm.rules[r].switched c = false

/-! ### The updates -/

/-- The property is kept by the updates that the blocks make between the house frames. -/
structure KeptByBlocks (P : State → Prop) : Prop where
  links : ∀ (s : State) (rx : Vector Receiver 4) (cv : Vector Conv 4) (free : Nat), P s →
    P { s with rx := rx, cv := cv, free := free }
  lost : ∀ s : State, P s → P (s.setTb { s.tb with lost := false })
  port : ∀ (s : State) (p : Port), (PortBounded s.port → PortBounded p) → P s → P (s.setPort p)
  frame : ∀ (s : State) (f : Frame), f.boundaryDue = s.frame.boundaryDue → P s → P (s.setFrame f)
  tables : ∀ (s : State) (t : Tables), TablesKept s t → P s → P (s.setTables t)
  line : ∀ (s : State) (c : ChannelId) (x : Line), LineKept (regionLength (s.regionOf c) - 1) s.lines[c] x → P s →
    P (s.setLine c x)
  toPrimary : ∀ (s : State) (c : ChannelId), s.sources[c] = .pending ∨ Unswitched s c → P s → P (s.setSource c .primary)
  restore : ∀ (s : State) (c : ChannelId), P s → P ((s.setSource c .primary).leaveSwitched c)
  emptySwitched : ∀ s : State, P s → P (s.setAlarm { s.alarm with
    rules := s.alarm.rules.map fun r => { r with switched := 0#32 } })
  gain : ∀ (s : State) (p : ProgId) (r : ProgRecord) (x : Gain), s.record p = some r → GainKept r s.gain[p] x → P s →
    P (s.setGain p x)
  loud : ∀ (s : State) (p : ProgId) (x : Loud), LoudKept s.loud[p] x → P s → P (s.setLoud p x)
  due : ∀ (s : State) (ds : List DueRule), ds <:+ s.alarm.due → P s → P (s.setDue ds)
  rule : ∀ (s : State) (r : RuleId) (x : Rule), RuleKept s.alarm.rules[r] x → P s → P (s.setRule r x)
  raise : ∀ (s : State) (d : DueRule) (ds : List DueRule), d.kind = .raising → P (s.setDue (d :: ds)) →
    P (((s.putRule d.rule .active 0 false).applyAction d.rule s.tables.ruleRecords[d.rule]).setDue ds)
  hold : ∀ (s : State) (d : DueRule) (ds : List DueRule), P (s.setDue (d :: ds)) →
    P ((s.putRule d.rule .held 0 false).setDue ds)
  release : ∀ (s : State) (r : RuleId) (ds : List DueRule), P (s.setDue ds) → P ((s.releaseAction r).setDue ds)
  evaluate : ∀ s : State, P s → P s.evaluateRules
  clearMeasure : ∀ s : State, P s → P s.resetMeasure
  roll : ∀ s : State, s.frame.boundaryDue = true → P s → P (s.raiseSlice.rollRecords s.tb.slice)
  window : ∀ (s : State) (p : ProgId) (r : ProgRecord), s.record p = some r → P s →
    P (s.setLoud p (boundaryLoud r (s.programmePower r.members) s.loud[p]))
  swap : ∀ s : State, s.tables.bankState = .armed → P s → P s.swap

/-- The property is kept by the updates of the blocks and by those that a reset, a pulse and the end of a house frame make. -/
structure KeptBySteps (P : State → Prop) : Prop extends KeptByBlocks P where
  pending : ∀ (s : State) (q : List Instr), P s → P (s.setPending q)
  hardwareReset : ∀ (s : State) (cause : ResetCause) (rate96 : Bool) (addr : BitVec 6) (mlk : LinkId), P s →
    P (s.hardwareReset cause rate96 addr mlk)
  timebase : ∀ (s : State) (x : Timebase), x.phase = s.tb.phase → x.rate96 = s.tb.rate96 → P s → P (s.setTb x)
  frameEnds : ∀ (s : State) (b : Nat), s.frame.boundaryDue = false → P s →
    P (s.formAudio.setTb (beginFrame b s.formAudio.tb)).markBoundary

/-! ### Facts about the shared operations -/

theorem State.present_iff (s : State) (p : ProgId) : s.present p = true ↔ ∃ r, s.record p = some r := by
  rw [State.present, Option.isSome_iff_exists]

theorem State.setDue_self (s : State) {ds : List DueRule} (h : s.alarm.due = ds) : s.setDue ds = s := by
  subst h; rfl

/-- A release empties the rule's two sets, and leaves the other rules and the rules that are due (R133). -/
theorem releaseAction_alarm (s : State) (r : RuleId) :
    (s.releaseAction r).alarm = (s.setRule r { s.alarm.rules[r] with muted := 0#8, switched := 0#32 }).alarm := by
  have hk := forProgs_same (view := State.alarm)
    (f := fun t p => if hasMember s.alarm.rules[r].muted p then t.dropReason r p else t)
    (fun t p => by
      split
      · rw [(reasons_frame t r p).2]
      · rfl) s
  unfold State.releaseAction
  simp only
  rw [releaseBackup_frame]
  generalize forProgs (fun t p => if hasMember s.alarm.rules[r].muted p then t.dropReason r p else t) s = t at hk ⊢
  simp only [State.setRule, hk]

/-- An action that is applied leaves the rules that are due (R130). -/
theorem applyAction_due (s : State) (r : RuleId) (x : RuleRecord) : (s.applyAction r x).alarm.due = s.alarm.due := by
  unfold State.applyAction
  split
  · rfl
  · have hk := foldl_same (view := fun t : State => t.alarm.due) (f := fun t p => t.addReason r p)
      (fun t p => by rw [(reasons_frame t r p).1]) (s.namedProgs x) s
    exact hk
  · simp only [State.setRule_due]
    rw [applyBackup_frame]

theorem clearRule_due (s : State) (r : RuleId) (x : RuleRecord) (v : Int) : (s.clearRule r x v).alarm.due = s.alarm.due := by
  simp [State.clearRule, State.makeNotice, State.putRule, releaseAction_alarm]

/-- The outcome of a due rule leaves the list of those that are due. -/
theorem takeDue_due (s : State) (d : DueRule) : (s.takeDue d).alarm.due = s.alarm.due := by
  unfold State.takeDue
  split
  · rfl
  · simp [State.raiseRule, State.makeNotice, applyAction_due, State.putRule]
  · unfold State.timerOutRule
    split
    · rfl
    · exact clearRule_due _ _ _ _

theorem settleAlarms_due (s : State) : s.settleAlarms.alarm.due = [] :=
  foldl_same (view := fun t : State => t.alarm.due) takeDue_due s.alarm.due (s.setDue [])

theorem clearRule_rule (s : State) (r : RuleId) (x : RuleRecord) (v : Int) :
    (s.clearRule r x v).alarm.rules[r] = quietRule := by
  simp [State.clearRule, State.makeNotice, State.putRule, releaseAction_alarm, quietRule]

/-- After a record has been written or disabled its rule is in QUIET (R121). -/
theorem quietRecord_state (s : State) (r : RuleId) (x : RuleRecord) :
    (s.quietRecord r x).alarm.rules[r].state = .quiet := by
  unfold State.quietRecord
  simp only
  split
  · rw [clearRule_rule]; rfl
  · simp [State.putRule]

/-! ### Keeping by the shared operations -/

section
variable {P : State → Prop} (k : KeptByBlocks P)
include k

theorem KeptByBlocks.cv {s : State} (cv : Vector Conv 4) (h : P s) : P { s with cv := cv } := k.links s s.rx cv s.free h

theorem KeptByBlocks.recomputeCut {s : State} (c : ChannelId) (b : Bool) (h : P s) : P (s.recomputeCut c b) := by
  refine k.line s c _ (fun hcur _ => ?_) h
  obtain ⟨htgt, -, -, hc, -⟩ := cutClass_frame s.lines[c] (s.lineTarget c) b
  rw [htgt, hc]
  exact ⟨hcur, targetFor_le _ _ _⟩

theorem KeptByBlocks.recomputeSlew {s : State} (c : ChannelId) (h : P s) : P (s.recomputeSlew c) := by
  refine k.line s c _ (fun hcur _ => ?_) h
  obtain ⟨htgt, -, -, hc, -⟩ := slewClass_frame s.lines[c] (s.lineTarget c)
  rw [htgt, hc]
  exact ⟨hcur, targetFor_le _ _ _⟩

theorem KeptByBlocks.changeToPrimary {s : State} (c : ChannelId) (hc : s.sources[c] = .pending ∨ Unswitched s c) (h : P s) :
    P (s.changeSource c .primary) := by
  rcases changeSource_cases s c .primary with e | e <;> rw [e]
  · exact k.toPrimary s c hc h
  · exact k.recomputeCut c true (k.toPrimary s c hc h)

theorem KeptByBlocks.notice {s : State} (r : RuleId) (x : RuleRecord) (e : NoticeEvent) (v : Int) (h : P s) :
    P (s.makeNotice r x e v) := by
  refine k.port s _ (fun ⟨hrelay, hcommands, hreplies, hnotices⟩ => ?_) h
  rcases pushNotice_cases s.port _ with ⟨hl, e⟩ | ⟨hl, e⟩ <;> rw [e]
  · exact ⟨hrelay, hcommands, hreplies, by simp; omega⟩
  · exact ⟨hrelay, hcommands, hreplies, hnotices⟩

/-! #### Rules -/

theorem KeptByBlocks.clearRule {s : State} {ds : List DueRule} (r : RuleId) (x : RuleRecord) (v : Int) (h : P (s.setDue ds)) :
    P ((s.clearRule r x v).setDue ds) := by
  have hquiet := k.rule ((s.releaseAction r).setDue ds) r
    { (s.releaseAction r).alarm.rules[r] with state := .quiet, timer := 0, ack := false }
    ⟨rfl, rfl, .inr ⟨by simp [State.setDue, releaseAction_alarm], rfl⟩⟩ (k.release s r ds h)
  exact k.notice (s := ((s.releaseAction r).putRule r .quiet 0 false).setDue ds) r x .cleared v hquiet

theorem KeptByBlocks.takeDue {s : State} {d : DueRule} {ds : List DueRule} (h : P (s.setDue (d :: ds))) :
    P ((s.takeDue d).setDue ds) := by
  have hpop : P (s.setDue ds) := k.due (s.setDue (d :: ds)) ds (List.suffix_cons d ds) h
  unfold State.takeDue
  split
  · exact k.notice (s := s.setDue ds) _ _ _ _ hpop
  · next hkind => exact k.notice _ _ _ _ (k.raise s d ds hkind h)
  · unfold State.timerOutRule
    split
    · exact k.notice _ _ _ _ (k.hold s d ds h)
    · exact k.clearRule _ _ _ hpop

theorem KeptByBlocks.makeReturns : ∀ {s : State} {ds : List DueRule}, P (s.setDue ds) → P (s.makeReturns ds)
  | _, [], h => h
  | s, d :: ds, h => by
    unfold State.makeReturns
    split
    · exact KeptByBlocks.makeReturns (k.takeDue h)
    · exact h

theorem KeptByBlocks.dueStep {s : State} (r : RuleId) (kind : DueKind) (h : P s) : P (s.dueStep r kind) := by
  rcases dueStep_cases s r kind with e | ⟨d, rest, hdue, -, -, e⟩ <;> rw [e]
  · exact h
  · rw [← s.setDue_self hdue] at h
    exact k.makeReturns (k.takeDue h)

theorem KeptByBlocks.takeDues : ∀ {ds : List DueRule} {s : State}, P (s.setDue ds) → P ((ds.foldl State.takeDue s).setDue [])
  | [], _, h => h
  | d :: _, s, h => KeptByBlocks.takeDues (s := s.takeDue d) (k.takeDue h)

theorem KeptByBlocks.settleAlarms {s : State} (h : P s) : P s.settleAlarms := by
  have hall : P (s.settleAlarms.setDue []) := k.takeDues (s := s.setDue []) h
  rwa [State.setDue_self _ (settleAlarms_due s)] at hall

theorem KeptByBlocks.clear {s : State} (r : RuleId) (x : RuleRecord) (v : Int) (h : P s) : P (s.clearRule r x v) := by
  have hc := k.clearRule (ds := s.alarm.due) r x v h
  rwa [State.setDue_self _ (clearRule_due s r x v)] at hc

theorem KeptByBlocks.quietRecord {s : State} (r : RuleId) (x : RuleRecord) (h : P s) : P (s.quietRecord r x) := by
  unfold State.quietRecord
  simp only
  split
  · exact k.clear r x _ (k.settleAlarms h)
  · next hraised =>
    exact k.rule _ r _ ⟨rfl, rfl, .inl (Bool.eq_false_iff.2 hraised).symm⟩ (k.settleAlarms h)

theorem KeptByBlocks.silenceRule {s : State} (r : RuleId) (h : P s) : P (s.silenceRule r) := by
  have hrel : P (s.releaseAction r) := by
    have := k.release s r s.alarm.due h
    rwa [State.setDue_self _ (by simp [releaseAction_alarm])] at this
  exact k.rule _ r _ ⟨rfl, rfl, .inr ⟨by simp [releaseAction_alarm], rfl⟩⟩ hrel

theorem KeptByBlocks.resetAlarms {s : State} (h : P s) : P s.resetAlarms := by
  have hrules : P (forRules State.silenceRule s) := forRules_keeps (fun _ r ht => k.silenceRule r ht) h
  have hdue := k.due _ [] (List.nil_suffix) hrules
  exact k.port ((forRules State.silenceRule s).setDue []) { (forRules State.silenceRule s).port with notices := [] }
    (fun ⟨hrelay, hcommands, hreplies, _⟩ => ⟨hrelay, hcommands, hreplies, by simp⟩) hdue

/-! #### Links and lines -/

theorem KeptByBlocks.report {s : State} (l : LinkId) (r : Report) (h : P s) (hr : PortBounded s.port →
    PortBounded (s.port.takeReport r)) : P (s.report l r) := by
  unfold State.report
  split
  · exact k.port s _ hr h
  · exact h

theorem KeptByBlocks.recomputeLink {s : State} (l : LinkId) (h : P s) : P (s.recomputeLink l) := by
  refine forChannels_keeps (fun t c ht => ?_) h
  split
  · exact k.recomputeCut c false ht
  · exact ht

theorem KeptByBlocks.lockReport {s : State} (l : LinkId) (h : P s) : P (s.lockReport l) := by
  refine forChannels_keeps (fun t c ht => ?_) h
  split
  · next hw =>
    simp only [State.waitsFor, Bool.and_eq_true, beq_iff_eq] at hw
    exact k.changeToPrimary c (.inl hw.1) ht
  · exact ht

theorem KeptByBlocks.enterLocked {s : State} (l : LinkId) (c : Conv) (h : P s) : P (s.enterLocked l c) := by
  unfold State.enterLocked
  refine k.lockReport l ?_
  split
  · exact k.cv _ h
  · exact k.recomputeLink l (k.cv _ h)

theorem KeptByBlocks.endMeasurement {s : State} (l : LinkId) (h : P s) : P (s.endMeasurement l) := by
  unfold State.endMeasurement
  simp only
  split
  · exact k.enterLocked l _ h
  · exact k.cv _ h

theorem KeptByBlocks.converterSteps {s : State} (l : LinkId) (h : P s) :
    P (s.leaveDark l) ∧ P (s.acquisitionEnd l) ∧ P (s.unsupportedBlockEnd l) ∧ P (s.directAcquisitionEnd l) ∧
    P (s.servoUpdate l) ∧ P (s.spliceJump l) ∧ P (s.spliceEnd l) := by
  unfold State.leaveDark State.acquisitionEnd State.unsupportedBlockEnd State.directAcquisitionEnd State.servoUpdate
    State.spliceJump State.spliceEnd
  have hite : ∀ {t : State} {b : Bool}, P t → P (if b then t else s) := by
    intro t b ht; split <;> assumption
  exact ⟨hite (k.cv _ h), hite (k.endMeasurement l h), hite (k.endMeasurement l h), hite (k.enterLocked l _ h),
    hite (k.cv _ h), hite (k.cv _ h), hite (k.enterLocked l _ h)⟩

theorem KeptByBlocks.settleLink {s : State} (l : LinkId) (h : P s) : P (s.settleLink l) := by
  have h1 := (k.converterSteps l h).1
  have h2 := (k.converterSteps l h1).2.1
  have h3 := (k.converterSteps l h2).2.2.1
  have h4 := (k.converterSteps l h3).2.2.2.1
  have h5 := (k.converterSteps l h4).2.2.2.2.1
  have h6 := (k.converterSteps l h5).2.2.2.2.2.1
  exact (k.converterSteps l h6).2.2.2.2.2.2

theorem KeptByBlocks.lineSteps {s : State} (c : ChannelId) (h : P s) : P (s.slewStep c) ∧ P (s.cutJump c) ∧ P (s.cutEnd c) := by
  refine ⟨?_, ?_, ?_⟩
  · unfold State.slewStep
    split
    · exact k.line s c _ (fun hcur htgt => ⟨stepToward_le hcur htgt, htgt⟩) h
    · exact h
  · unfold State.cutJump
    split
    · exact k.line s c _ (fun _ htgt => ⟨htgt, htgt⟩) h
    · exact h
  · unfold State.cutEnd cutEndLine
    split
    · exact k.line s c _ (fun hcur htgt => by split <;> exact ⟨hcur, htgt⟩) h
    · exact h

/-! #### Gain -/

theorem KeptByBlocks.queueService {s : State} (p : ProgId) (h : P s) : P (s.queueService p) := by
  unfold State.queueService
  split
  · exact h
  · next r hr =>
    split
    · refine k.gain s p r _ hr ⟨?_, fun hq => ?_, fun ht => ?_⟩ h
      · unfold countRamp serveGain; split <;> rfl
      · obtain ⟨hsuf, -⟩ := serveEntries_cases r s.tb.hfc s.gain[p].queue s.gain[p].tgt
        have hlen : (serveEntries r s.tb.hfc s.gain[p].queue s.gain[p].tgt).1.length ≤ 4 := hsuf.length_le.trans hq
        unfold countRamp serveGain; split <;> exact hlen
      · have hlim : InLimits r (serveEntries r s.tb.hfc s.gain[p].queue s.gain[p].tgt).2 := by
          obtain ⟨-, e | ⟨x, -, e⟩⟩ := serveEntries_cases r s.tb.hfc s.gain[p].queue s.gain[p].tgt <;> rw [e]
          · exact ht
          · exact clampGain_mem r x.target
        unfold countRamp serveGain; split <;> exact hlim
    · exact h

theorem KeptByBlocks.rampStep {s : State} (p : ProgId) (h : P s) : P (s.rampStep p) := by
  unfold State.rampStep State.rampTurn
  split
  · next hturn =>
    obtain ⟨r, hr⟩ := (s.present_iff p).1 (Bool.and_eq_true_iff.1 hturn).1
    exact k.gain s p r _ hr ⟨rfl, id, id⟩ h
  · exact h

/-! #### The slice boundary -/

theorem KeptByBlocks.programmeBoundary {s : State} (p : ProgId) (h : P s) : P (s.programmeBoundary p) := by
  unfold State.programmeBoundary
  split
  · exact h
  · next r hr =>
    simp only
    refine k.gain _ p r _ hr ?_ (k.window s p r hr h)
    obtain ⟨htgt, -, hreasons, -, hqueue⟩ := decideGain_frame r
      (s.setLoud p (boundaryLoud r (s.programmePower r.members) s.loud[p])).loud[p]
      (s.setLoud p (boundaryLoud r (s.programmePower r.members) s.loud[p])).tb.hfc
      ((s.setLoud p (boundaryLoud r (s.programmePower r.members) s.loud[p])).lookahead p) s.gain[p]
    exact ⟨hreasons, hqueue, fun hlim => htgt ▸ hlim⟩

theorem KeptByBlocks.sliceBoundary {s : State} (h : P s) : P s.sliceBoundary := by
  unfold State.sliceBoundary
  split
  · next hdue =>
    have hwork : P s.boundaryWork := forProgs_keeps (fun _ p ht => k.programmeBoundary p ht) (k.roll s hdue h)
    have heval := k.evaluate _ hwork
    rw [← State.setDue_self _ (rfl : s.boundaryWork.evaluateRules.alarm.due = _)] at heval
    exact k.makeReturns heval
  · exact h

end

end Sys2Proof.Machine
end

section
/-! PROOF. What every step keeps: the writes of the tables and the queues of the management port meet the side conditions of
`KeptByBlocks`. -/

namespace Sys2Proof.Machine

/-! ### The two banks (R140) -/

@[simp] theorem activeBank_setStandbyBank (t : Tables) (b : Routing) : activeBank (setStandbyBank t b) = activeBank t := by
  unfold activeBank setStandbyBank; split <;> simp_all

@[simp] theorem standbyBank_setStandbyBank (t : Tables) (b : Routing) : standbyBank (setStandbyBank t b) = b := by
  unfold standbyBank setStandbyBank; split <;> simp_all

/-- What a write of the standby bank leaves of the tables. -/
theorem setStandbyBank_frame (t : Tables) (b : Routing) :
    setStandbyBank t b = { t with bank0 := (setStandbyBank t b).bank0, bank1 := (setStandbyBank t b).bank1 } := by
  unfold setStandbyBank; split <;> rfl

@[simp] theorem setStandbyBank_bankState (t : Tables) (b : Routing) : (setStandbyBank t b).bankState = t.bankState := by
  rw [setStandbyBank_frame]

@[simp] theorem setStandbyBank_ruleRecords (t : Tables) (b : Routing) :
    (setStandbyBank t b).ruleRecords = t.ruleRecords := by
  rw [setStandbyBank_frame]

@[simp] theorem setStandbyBank_filters (t : Tables) (b : Routing) : (setStandbyBank t b).filters = t.filters := by
  rw [setStandbyBank_frame]

/-- What holds of both banks holds of the active and of the standby one. -/
theorem banks_iff (Q : Routing → Prop) (t : Tables) : Q t.bank0 ∧ Q t.bank1 ↔ Q (activeBank t) ∧ Q (standbyBank t) := by
  unfold activeBank standbyBank
  cases t.marker <;> simp [and_comm]

/-- Every region of the bank lies inside the delay store (R57). -/
def BankFits (b : Routing) : Prop := ∀ (c : ChannelId) (r : Region), b.regions[c] = some r → r.base + r.count ≤ 1024

theorem tablesFit_iff (t : Tables) : TablesFit t ↔ BankFits (activeBank t) ∧ BankFits (standbyBank t) := by
  rw [← banks_iff BankFits t]
  exact ⟨fun h => ⟨fun c r hr => h c r (.inl hr), fun c r hr => h c r (.inr hr)⟩,
    fun ⟨h0, h1⟩ c r hr => hr.elim (h0 c r) (h1 c r)⟩

/-! ### Validation (R144) -/

theorem mem_visitMembers (b : Routing) (p : ProgId) (c : ChannelId) :
    (p, c) ∈ visitMembers b ↔ ∃ r : ProgRecord, b.programmes[p] = some r ∧ r.lists c = true := by
  simp only [visitMembers, allProgs, List.mem_flatMap, List.mem_finRange, true_and]
  constructor
  · rintro ⟨q, hq⟩
    split at hq
    · next r hr =>
      obtain ⟨m, hm, e⟩ := List.mem_map.1 hq
      obtain ⟨rfl, rfl⟩ := Prod.mk.inj e
      exact ⟨r, hr, List.any_eq_true.2 ⟨m, hm, beq_self_eq_true _⟩⟩
    · simp at hq
  · rintro ⟨r, hr, hl⟩
    obtain ⟨m, hm, e⟩ := List.any_eq_true.1 hl
    refine ⟨p, ?_⟩
    rw [hr]
    exact List.mem_map.2 ⟨m, hm, by rw [beq_iff_eq.1 e]⟩

theorem listedBelow_iff (b : Routing) (p : ProgId) (c : ChannelId) :
    listedBelow b p c = true ↔ ∃ q r, q < p ∧ b.programmes[q] = some r ∧ r.lists c = true := by
  simp only [listedBelow, allProgs, List.any_eq_true, List.mem_finRange, true_and, Bool.and_eq_true, decide_eq_true_eq]
  refine exists_congr fun q => ?_
  cases h : b.programmes[q] <;> simp

theorem memberTwice_none_iff (b : Routing) : memberTwice b = none ↔
    ∀ (c : ChannelId) (p q : ProgId) (r r' : ProgRecord), b.programmes[p] = some r → b.programmes[q] = some r' →
      r.lists c = true → r'.lists c = true → p = q := by
  simp only [memberTwice, Option.map_eq_none_iff, List.find?_eq_none, Prod.forall, mem_visitMembers, listedBelow_iff]
  constructor
  · intro h c p q r r' hp hq hr hr'
    rcases lt_trichotomy p q with hlt | heq | hgt
    · exact absurd ⟨p, r, hlt, hp, hr⟩ (h q c ⟨r', hq, hr'⟩)
    · exact heq
    · exact absurd ⟨q, r', hgt, hq, hr'⟩ (h p c ⟨r, hp, hr⟩)
  · rintro h p c ⟨r, hp, hr⟩ ⟨q, r', hlt, hq, hr'⟩
    exact absurd (h c q p r' r hq hp hr' hr) (ne_of_lt hlt)

theorem sharePage_comm (a b : Option Region) : sharePage a b = sharePage b a := by
  unfold sharePage
  cases a <;> cases b <;> simp [and_comm]

theorem overlapped_none_iff (b : Routing) (c : ChannelId) :
    overlapped b c = none ↔ ∀ d : ChannelId, d < c → sharePage b.regions[c] b.regions[d] = false := by
  simp [overlapped, allChannels]

theorem regionOverlap_none_iff (b : Routing) : regionOverlap b = none ↔
    ∀ c d : ChannelId, c ≠ d → sharePage b.regions[c] b.regions[d] = false := by
  simp only [regionOverlap, List.findSome?_eq_none_iff, allChannels, List.mem_finRange, true_implies, Option.map_eq_none_iff,
    overlapped_none_iff]
  constructor
  · intro h c d hne
    rcases lt_or_gt_of_ne hne with hlt | hgt
    · rw [sharePage_comm]; exact h d c hlt
    · exact h c d hgt
  · exact fun h c d hlt => h c d (ne_of_gt hlt)

theorem validate_none_iff (b : Routing) :
    validate b = none ↔ memberTwice b = none ∧ regionOverlap b = none ∧ memberUnmapped b = none := by
  simp [validate, Option.or_eq_none_iff, and_assoc]

/-- A bank that passes validation is sound (R144). -/
theorem bankSound_of_validate {b : Routing} (h : validate b = none) : Safety.BankSound b := by
  obtain ⟨htwice, hoverlap, -⟩ := (validate_none_iff b).1 h
  exact ⟨(memberTwice_none_iff b).1 htwice, (regionOverlap_none_iff b).1 hoverlap⟩

/-! ### Writes of the tables -/

/-- Tables with the active bank as it was, a sound standby bank and the rules' actions as they were may take the place of the
state's. -/
theorem TablesKept.of_active_eq {s : State} {t : Tables} (hactive : activeBank t = s.active)
    (hactions : ∀ r : RuleId,
      t.ruleRecords[r].action = s.tables.ruleRecords[r].action ∨ raised s.alarm.rules[r].state = false)
    (hfilters : cellsWf 0 s.tables.filters = true → cellsWf 0 t.filters = true)
    (hfits : BankFits s.active → BankFits (standbyBank s.tables) → BankFits (standbyBank t))
    (hmembers : Safety.MembersInRange s.active → Safety.MembersInRange (standbyBank s.tables) →
      Safety.MembersInRange (standbyBank t))
    (harmed : Safety.BanksSound s → t.bankState = .armed → Safety.BankSound (standbyBank t)) : TablesKept s t where
  slotMap := by rw [hactive]
  regions := by rw [hactive]
  records := fun p => by rw [hactive]; rfl
  actions := hactions
  fits := fun h => by
    obtain ⟨ha, hs⟩ := (tablesFit_iff _).1 h
    exact (tablesFit_iff _).2 ⟨hactive ▸ ha, hfits ha hs⟩
  filters := hfilters
  members := fun h => by
    obtain ⟨ha, hs⟩ := (banks_iff Safety.MembersInRange _).1 h
    exact (banks_iff Safety.MembersInRange _).2 ⟨hactive ▸ ha, hmembers ha hs⟩
  armed := harmed

theorem TablesKept.refl (s : State) : TablesKept s s.tables :=
  .of_active_eq rfl (fun _ => .inl rfl) id (fun _ h => h) (fun _ h => h) (fun h => h.2)

/-- Another bank state and pending instant; a bank that is armed anew is sound. -/
theorem TablesKept.bankState (s : State) (x : BankState) (i : Option Instant)
    (h : x = .armed → Safety.BankSound (standbyBank s.tables)) :
    TablesKept s { s.tables with bankState := x, pendingInstant := i } :=
  .of_active_eq rfl (fun _ => .inl rfl) id (fun _ h => h) (fun _ h => h) (fun _ => h)

/-- A rule's enabled field. -/
theorem TablesKept.setEnabled (s : State) (r : RuleId) (on : Bool) : TablesKept s (setEnabled r on s.tables) := by
  refine .of_active_eq rfl (fun q => .inl ?_) id (fun _ h => h) (fun _ h => h) (fun h => h.2)
  by_cases hq : r.val = q.val
  · obtain rfl := Fin.ext hq
    simp [Sys2Proof.Machine.setEnabled]
  · simp [Sys2Proof.Machine.setEnabled, hq]

section
variable {f : ProgRecord → ProgRecord} (hf : ∀ r, limits (f r) = limits r)
include hf

theorem adjustBank_records (p : ProgId) (b : Routing) (q : ProgId) :
    (adjustBank f p b).programmes[q].map limits = b.programmes[q].map limits := by
  have hcomp : limits ∘ f = limits := funext hf
  by_cases hq : p.val = q.val
  · obtain rfl := Fin.ext hq
    simp [adjustBank, hcomp]
  · simp [adjustBank, hq]

theorem adjustBank_members (p : ProgId) {b : Routing} (h : Safety.MembersInRange b) :
    Safety.MembersInRange (adjustBank f p b) := by
  intro q r hr
  have heq := adjustBank_records hf p b q
  rw [hr] at heq
  obtain ⟨x, hx, hl⟩ := Option.map_eq_some_iff.1 heq.symm
  have hm : x.members = r.members := congrArg Prod.fst hl
  exact hm ▸ h q x hx

omit hf in
theorem activeBank_adjustTables (p : ProgId) (t : Tables) :
    activeBank (adjustTables f p t) = adjustBank f p (activeBank t) := by
  unfold activeBank adjustTables
  cases t.marker <;> rfl

/-- A live adjust of a field that the gain and the measurement do not read (R149). -/
theorem TablesKept.adjust {s : State} (p : ProgId) (h : s.tables.bankState = .editing) :
    TablesKept s (adjustTables f p s.tables) where
  slotMap := by rw [activeBank_adjustTables]; rfl
  regions := by rw [activeBank_adjustTables]; rfl
  records := fun q => by rw [activeBank_adjustTables]; exact adjustBank_records hf p _ q
  actions := fun _ => .inl rfl
  fits := id
  filters := id
  members := fun ⟨h0, h1⟩ => ⟨adjustBank_members hf p h0, adjustBank_members hf p h1⟩
  armed := fun _ harmed => by rw [adjustTables, h] at harmed; cases harmed

end

theorem copyEntry_fits (pos : Nat) {src dst : Routing} (hs : BankFits src) (hd : BankFits dst) :
    BankFits (copyEntry pos src dst) := by
  intro c r hr
  unfold copyEntry at hr
  split at hr
  · exact hd c r hr
  · split at hr
    · exact hd c r hr
    · split at hr
      · exact hd c r hr
      · split at hr
        · next hpos =>
          simp only [Fin.getElem_fin, Vector.getElem_set] at hr
          split at hr
          · exact hs ⟨pos - 72, hpos⟩ r hr
          · exact hd c r hr
        · exact hd c r hr

theorem copyEntry_members (pos : Nat) {src dst : Routing} (hs : Safety.MembersInRange src)
    (hd : Safety.MembersInRange dst) : Safety.MembersInRange (copyEntry pos src dst) := by
  intro p r hr
  unfold copyEntry at hr
  split at hr
  · exact hd p r hr
  · split at hr
    · exact hd p r hr
    · split at hr
      · next hpos =>
        simp only [Fin.getElem_fin, Vector.getElem_set] at hr
        split at hr
        · exact hs ⟨pos - 64, hpos⟩ r hr
        · exact hd p r hr
      · split at hr <;> exact hd p r hr

/-- A copy of one entry into a standby bank that is not armed (R148). -/
theorem TablesKept.copy {s : State} {x : BankState} (h : x ≠ .armed) :
    TablesKept s { copyNext s.tables with bankState := x } := by
  obtain ⟨hactive, -, -, -, hfilters, hrules, -⟩ := copyNext_frame s.tables
  have hstandby : standbyBank { copyNext s.tables with bankState := x } =
      copyEntry s.tables.copyPos s.active (standbyBank s.tables) := standbyBank_setStandbyBank _ _
  refine .of_active_eq hactive (fun _ => .inl ?_) (fun hw => ?_) (fun ha hs => ?_) (fun ha hs => ?_) (fun _ e => absurd e h)
  · rw [hrules]
  · rw [hfilters]; exact hw
  · rw [hstandby]; exact copyEntry_fits _ ha hs
  · rw [hstandby]; exact copyEntry_members _ ha hs

theorem TablesKept.copyBack (s : State) : TablesKept s (copyBack s.tables) := by
  unfold Sys2Proof.Machine.copyBack
  split
  · next h =>
    have hstate : (copyNext s.tables).bankState = .copying := (copyNext_frame s.tables).2.2.1.trans h.1
    rw [show copyNext s.tables = { copyNext s.tables with bankState := .copying } by rw [← hstate]]
    exact .copy (by decide)
  · exact .refl s

/-! ### Records written (section 10.2) -/

/-- What a written record puts into the banks stays in the ranges that the store and the measurement need (R57, R141). -/
def RecordSound : Record → Prop
  | .region (some r) => r.base + r.count ≤ 1024
  | .programme (some p) => p.members.length ≤ 8 ∧ ∀ m ∈ p.members, m.weight ≤ 31
  | _ => True

theorem readRegion_sound {bs : List Byte} {r : Region} (h : readRegion bs = some (some r)) : r.base + r.count ≤ 1024 := by
  unfold readRegion at h
  simp only at h
  split at h
  · cases h
  · split at h
    · next hr => cases h; exact hr.2.2
    · cases h

theorem readProgramme_valid {bs : List Byte} {p : ProgRecord} (h : readProgramme bs = some (some p)) :
    programmeValid p = true := by
  unfold readProgramme at h
  split at h
  · cases h
  · split at h
    · simp only at h
      split at h
      · next hv => cases h; exact hv
      · cases h
    · cases h

theorem programmeValid_members {p : ProgRecord} (h : programmeValid p = true) :
    p.members.length ≤ 8 ∧ ∀ m ∈ p.members, m.weight ≤ 31 := by
  simp only [programmeValid, Bool.and_eq_true, decide_eq_true_eq, List.all_eq_true] at h
  tauto

/-- A record read from its bytes is one of its table, in range. -/
theorem readRecord_sound {name : TableName} {bs : List Byte} {r : Record} (h : readRecord name bs = some r) :
    r.table = name ∧ RecordSound r := by
  cases name <;> simp only [readRecord, Option.map_eq_some_iff] at h <;> obtain ⟨x, hx, rfl⟩ := h
  case programmes =>
    cases x with
    | none => exact ⟨rfl, trivial⟩
    | some p => exact ⟨rfl, programmeValid_members (readProgramme_valid hx)⟩
  case regions =>
    cases x with
    | none => exact ⟨rfl, trivial⟩
    | some g => exact ⟨rfl, readRegion_sound hx⟩
  all_goals exact ⟨rfl, trivial⟩

theorem putBanked_fits (i : Nat) {r : Record} {b : Routing} (hr : RecordSound r) (hb : BankFits b) :
    BankFits (putBanked b i r) := by
  cases r with
  | region g =>
    intro c x hx
    simp only [putBanked, Fin.getElem_fin, Vector.getElem_set] at hx
    split at hx
    · subst hx; exact hr
    · exact hb c x hx
  | _ => exact hb

theorem putBanked_members (i : Nat) {r : Record} {b : Routing} (hr : RecordSound r) (hb : Safety.MembersInRange b) :
    Safety.MembersInRange (putBanked b i r) := by
  cases r with
  | programme p =>
    intro q x hx
    simp only [putBanked, Fin.getElem_fin, Vector.getElem_set] at hx
    split at hx
    · subst hx; exact hr
    · exact hb q x hx
  | _ => exact hb

/-- A banked record put into the standby bank while the banks are EDITING. -/
theorem TablesKept.putBanked {s : State} (i : Nat) {r : Record} (hr : RecordSound r)
    (hstate : s.tables.bankState = .editing) :
    TablesKept s (setStandbyBank s.tables (putBanked (standbyBank s.tables) i r)) :=
  .of_active_eq (activeBank_setStandbyBank _ _) (fun _ => .inl (by rw [setStandbyBank_ruleRecords]))
    (by rw [setStandbyBank_filters]; exact id)
    (fun _ hs => by rw [standbyBank_setStandbyBank]; exact putBanked_fits i hr hs)
    (fun _ hs => by rw [standbyBank_setStandbyBank]; exact putBanked_members i hr hs)
    (fun _ e => by rw [setStandbyBank_bankState, hstate] at e; cases e)

/-- A record put into its table: a banked one while the banks are EDITING, an alarm rule's while the rule is not raised. -/
theorem TablesKept.putEntry {s : State} (i : Nat) {r : Record} (hr : RecordSound r)
    (hbanked : banked r.table = true → s.tables.bankState = .editing)
    (hrule : r.table = .alarmRules → raised s.alarm.rules[(Fin.ofNat 32 i : RuleId)].state = false) :
    TablesKept s (putEntry s.tables i r) := by
  cases r with
  | slotMap e => exact .putBanked i hr (hbanked rfl)
  | outputMap o => exact .putBanked i hr (hbanked rfl)
  | programme p => exact .putBanked i hr (hbanked rfl)
  | region g => exact .putBanked i hr (hbanked rfl)
  | filter v =>
    exact .of_active_eq rfl (fun _ => .inl rfl) (writeCell_wf _ i v) (fun _ h => h) (fun _ h => h) (fun h => h.2)
  | alarmRule x =>
    refine .of_active_eq rfl (fun q => ?_) id (fun _ h => h) (fun _ h => h) (fun h => h.2)
    by_cases hq : (Fin.ofNat 32 i).val = q.val
    · obtain rfl := Fin.ext hq
      exact .inr (hrule rfl)
    · exact .inl (by simp only [Sys2Proof.Machine.putEntry, Fin.getElem_fin, Vector.getElem_set, if_neg hq])
  | linkConfig c => exact .of_active_eq rfl (fun _ => .inl rfl) id (fun _ h => h) (fun _ h => h) (fun h => h.2)
  | select e => exact .of_active_eq rfl (fun _ => .inl rfl) id (fun _ h => h) (fun _ h => h) (fun h => h.2)
  | weighting v => exact .of_active_eq rfl (fun _ => .inl rfl) id (fun _ h => h) (fun _ h => h) (fun h => h.2)

theorem putEntry_bankState (t : Tables) (i : Nat) (r : Record) : (putEntry t i r).bankState = t.bankState := by
  cases r <;> simp [putEntry]

theorem writeEntry_bankState (s : State) (i : Nat) (r : Record) :
    (s.writeEntry i r).tables.bankState = s.tables.bankState := by
  unfold State.writeEntry
  split
  · simp only
    split
    · exact putEntry_bankState _ _ _
    · exact putEntry_bankState _ _ _
  · next x =>
    have h := (sameButRules_eqs (quietRecord_rules s (Fin.ofNat 32 i) s.tables.ruleRecords[(Fin.ofNat 32 i : RuleId)])).2.2.2.1
    simp only [State.setTables_tables, putEntry_bankState, h]
  · exact putEntry_bankState _ _ _

/-! ### The queues of the port -/

theorem PortBounded.route {p : Port} (bs : List Byte) (h : PortBounded p) : PortBounded (p.route bs) := route_bounded p bs h

theorem PortBounded.beginMessage {p : Port} (b : Byte) (h : PortBounded p) : PortBounded (p.beginMessage b) := by
  unfold Port.beginMessage; split <;> exact h

theorem PortBounded.addByte {p : Port} (b : Byte) (h : PortBounded p) : PortBounded (p.addByte b) := by
  unfold Port.addByte
  split
  · exact h
  · split
    · exact h
    · simp only
      split
      · unfold Port.completeMessage
        split
        · exact PortBounded.route (p := { p with assembler := idleAssembler }) _ h
        · exact h
      · exact h

theorem PortBounded.takeByte {p : Port} (b : Byte) (start : Bool) (h : PortBounded p) : PortBounded (p.takeByte b start) := by
  unfold Port.takeByte
  split
  · split
    · exact PortBounded.beginMessage (p := { p with errors := bumpInterrupted p.errors }) b h
    · exact h.beginMessage b
  · exact h.addByte b

theorem PortBounded.assemblerTimeout {p : Port} (h : PortBounded p) : PortBounded p.assemblerTimeout := by
  unfold Port.assemblerTimeout; split <;> exact h

theorem PortBounded.takeReport {p : Port} (r : Report) (h : PortBounded p) : PortBounded (p.takeReport r) := by
  have ht := h.assemblerTimeout
  unfold Port.takeReport
  simp only
  split
  · split <;> exact ht
  · exact foldl_keeps (P := PortBounded) (fun _ x hp => hp.takeByte x.1 x.2) _ _ ht
  · split <;> exact ht
  · split <;> exact ht

theorem PortBounded.takeHead {p q : Port} {x : Served} {bs : List Byte} (h : PortBounded p)
    (hq : p.takeHead x = some (bs, q)) : PortBounded q := by
  obtain ⟨hrelay, hcommands, hreplies, hnotices⟩ := h
  unfold Port.takeHead at hq
  cases x with
  | relay =>
    cases e : p.relay <;> simp only [e] at hq <;> cases hq
    exact ⟨by rw [e] at hrelay; simp at hrelay ⊢; omega, hcommands, hreplies, hnotices⟩
  | reply =>
    cases e : p.replies <;> simp only [e] at hq <;> cases hq
    exact ⟨hrelay, hcommands, by rw [e] at hreplies; simp at hreplies ⊢; omega, hnotices⟩
  | notice =>
    cases e : p.notices <;> simp only [e] at hq <;> cases hq
    exact ⟨hrelay, hcommands, hreplies, by rw [e] at hnotices; simp at hnotices ⊢; omega⟩

theorem PortBounded.serve {p q : Port} {bs : List Byte} (h : PortBounded p) : ∀ {xs : List Served},
    p.serve xs = some (bs, q) → PortBounded q
  | [], hq => by cases hq
  | x :: xs, hq => by
    unfold Port.serve at hq
    split at hq
    · next e =>
      cases hq
      have ht := h.takeHead e
      exact ht
    · exact h.serve hq

theorem PortBounded.placeReply {p : Port} (m : Message) (h : PortBounded p) : PortBounded (p.placeReply m) := by
  obtain ⟨hrelay, hcommands, hreplies, hnotices⟩ := h
  unfold Port.placeReply
  split
  · exact ⟨hrelay, hcommands, by simp; omega, hnotices⟩
  · exact ⟨hrelay, hcommands, hreplies, hnotices⟩

end Sys2Proof.Machine
end

section
/-! PROOF. What every step keeps: the commands of the executor. -/

namespace Sys2Proof.Machine

/-- A context record read from its bytes has a count of 16 bits (R185). -/
theorem readContext_count_le (bs : List Byte) : (readContext bs).count ≤ 65535 :=
  Nat.le_of_lt_succ (Nat.mod_lt _ (by decide : 0 < 2 ^ 16))

/-- A context record that LOAD CONTEXT applies is within the bounds of R97. -/
theorem loadedLoud_bounded {c : Context} (hcount : c.count ≤ 65535) (h : contextInBounds c = true) :
    HistoryBounded (loadedLoud c) ∧ IntegratorBounded (loadedLoud c) := by
  simp only [contextInBounds, Bool.and_eq_true, decide_eq_true_eq] at h
  obtain ⟨⟨⟨⟨⟨-, hsum⟩, h1⟩, h2⟩, h3⟩, h4⟩ := h
  refine ⟨fun x hx => ?_, hcount, Nat.le_add_right_of_le hsum⟩
  simp only [loadedLoud, List.mem_cons, List.not_mem_nil, or_false] at hx
  rcases hx with rfl | rfl | rfl | rfl <;> assumption

theorem State.appliesTo_inBounds {s : State} {c : Context} {p : ProgId} (h : s.appliesTo c p = true) :
    contextInBounds c = true := by
  unfold State.appliesTo at h
  split at h
  · cases h
  · exact (Bool.and_eq_true_iff.1 h).2

section
variable {P : State → Prop} (k : KeptByBlocks P)
include k

/-! ### The table commands (section 10.2) -/

theorem KeptByBlocks.writeEntry {s : State} (i : Nat) {r : Record} (hr : RecordSound r)
    (hbanked : banked r.table = true → s.tables.bankState = .editing) (h : P s) : P (s.writeEntry i r) := by
  have hput (hrule : r.table ≠ .alarmRules) : P (s.setTables (putEntry s.tables i r)) :=
    k.tables s _ (.putEntry i hr hbanked (fun e => absurd e hrule)) h
  unfold State.writeEntry
  split
  · simp only
    split
    · exact hput nofun
    · exact k.cv _ (hput nofun)
  · exact k.tables _ _ (.putEntry i hr (fun e => by cases e) (fun _ => by rw [quietRecord_state]; rfl)) (k.quietRecord _ _ h)
  · next hrule =>
    refine hput fun e => ?_
    cases r <;> cases e
    exact hrule _ rfl

theorem KeptByBlocks.writeRecords : ∀ (rs : List Record) {s : State} (first : Nat),
    (∀ r ∈ rs, RecordSound r ∧ (banked r.table = true → s.tables.bankState = .editing)) → P s → P (s.writeRecords first rs)
  | [], _, _, _, h => h
  | r :: rs, s, first, hrs, h => by
    obtain ⟨hr, hbanked⟩ := hrs r List.mem_cons_self
    refine KeptByBlocks.writeRecords rs (first + 1) (fun x hx => ?_) (k.writeEntry first hr hbanked h)
    rw [writeEntry_bankState]
    exact hrs x (List.mem_cons_of_mem r hx)

theorem KeptByBlocks.putRecords {s : State} (code : Nat) (name : TableName) (first : Nat) (faulty : Option Nat)
    (rs : List (List Byte)) (h : P s) : P (s.putRecords code name first faulty rs).1 := by
  unfold State.putRecords
  split
  · exact h
  · split
    · exact h
    · next hrefusal =>
      refine k.writeRecords _ first (fun r hr => ?_) h
      obtain ⟨bs, -, hread⟩ := List.mem_filterMap.1 hr
      obtain ⟨rfl, hsound⟩ := readRecord_sound hread
      refine ⟨hsound, fun hb => ?_⟩
      simp only [State.writeRefusal, hb, Bool.true_and, bne_iff_ne, ne_eq, ite_not] at hrefusal
      split at hrefusal
      · assumption
      · cases hrefusal

theorem KeptByBlocks.writeEntries {s : State} (bs : List Byte) (h : P s) : P (s.writeEntries bs).1 := by
  unfold State.writeEntries
  repeat' split
  any_goals exact h
  simp only
  repeat' split
  any_goals exact h
  all_goals exact k.putRecords _ _ _ _ _ h

theorem KeptByBlocks.fillEntries {s : State} (bs : List Byte) (h : P s) : P (s.fillEntries bs).1 := by
  unfold State.fillEntries
  repeat' split
  any_goals exact h
  simp only
  repeat' split
  any_goals exact h
  all_goals exact k.putRecords _ _ _ _ _ h

/-! ### Status and reads (section 10.3) -/

theorem KeptByBlocks.readStatus {s : State} (bs : List Byte) (h : P s) : P (s.readStatus bs).1 := by
  unfold State.readStatus
  split
  · exact h
  · split
    · exact h
    · split
      · have hport := k.port s { s.port with noticesLost := 0, errors := zeroErrors } id h
        have hlinks := k.links _ (s.rx.map fun x => { x with parityErrors := 0, alignErrors := 0 })
          (s.cv.map fun x => { x with slips := 0, saturations := 0 }) s.free hport
        exact k.lost _ hlinks
      · exact h

theorem KeptByBlocks.tookFree {s : State} (h : P s) : P s.tookFree := k.links s s.rx s.cv (s.free + 1) h

theorem KeptByBlocks.readProgramme {s : State} (bs : List Byte) (h : P s) : P (s.readProgramme bs).1 := by
  unfold State.readProgramme
  split
  · exact h
  · split
    · exact h
    · simp only
      split
      · exact h
      · simp only
        split
        · exact k.tookFree h
        · exact h

/-! ### The take and the live adjusts (section 10.5) -/

theorem KeptByBlocks.takeCommandOf {s : State} (bs : List Byte) (h : P s) : P (s.takeCommandOf bs).1 := by
  unfold State.takeCommandOf
  repeat' split
  any_goals exact h
  next hvalid => exact k.tables s _ (.bankState s .armed _ (fun _ => bankSound_of_validate hvalid)) h

theorem KeptByBlocks.cancelTake {s : State} (bs : List Byte) (h : P s) : P (s.cancelTake bs).1 := by
  unfold State.cancelTake
  repeat' split
  any_goals exact h
  exact k.tables s _ (.bankState s .editing _ (fun e => by cases e)) h

theorem KeptByBlocks.answerDelay {s : State} (p : ProgId) (before : Option Nat) (h : P s) : P (s.answerDelay p before) := by
  unfold State.answerDelay
  split
  · split
    · exact h
    · refine foldl_keeps (fun t m ht => ?_) _ _ h
      unfold State.recomputeDelay
      split
      · exact k.recomputeSlew _ ht
      · exact k.recomputeCut _ _ ht
  · exact h

omit k in
/-- A live adjust that is not refused finds the banks EDITING (R149). -/
theorem State.adjustRefusal_none {s : State} {p : ProgId} (h : s.adjustRefusal p = none) :
    s.tables.bankState = .editing ∧ banksWritten s.tables p ≠ 0 := by
  unfold State.adjustRefusal at h
  split at h
  · cases h
  · next he =>
    split at h
    · cases h
    · next hw => exact ⟨not_not.1 he, hw⟩

theorem KeptByBlocks.adjust {s : State} {f : ProgRecord → ProgRecord} (hf : ∀ r, limits (f r) = limits r) {p : ProgId}
    (hok : s.adjustRefusal p = none) (h : P s) : P (s.setTables (adjustTables f p s.tables)) :=
  k.tables s _ (.adjust hf p (State.adjustRefusal_none hok).1) h

theorem KeptByBlocks.setDelay {s : State} (bs : List Byte) (h : P s) : P (s.setDelay bs).1 := by
  unfold State.setDelay
  split
  · exact h
  · split
    · exact h
    · simp only
      split
      · exact h
      · next hok => exact k.answerDelay _ _ (k.adjust (f := fun r => { r with dt := fieldAt bs 1 2 }) (fun _ => rfl) hok h)

theorem KeptByBlocks.setTarget {s : State} (bs : List Byte) (h : P s) : P (s.setTarget bs).1 := by
  unfold State.setTarget
  split
  · exact h
  · split
    · exact h
    · simp only
      split
      · exact h
      · split
        · exact h
        · next hok => exact k.adjust (f := fun r => { r with target := signedAt bs 1 2 }) (fun _ => rfl) hok h

theorem KeptByBlocks.setTrim {s : State} (bs : List Byte) (h : P s) : P (s.setTrim bs).1 := by
  unfold State.setTrim
  split
  · exact h
  · split
    · exact h
    · simp only
      split
      · exact h
      · split
        · exact h
        · next hok => exact k.adjust (f := fun r => { r with trim := signedAt bs 1 2 }) (fun _ => rfl) hok h

theorem KeptByBlocks.setCommand {s : State} (p : ProgId) (on : Bool) (hp : s.present p = true) (h : P s) :
    P (s.setCommand p on).1 := by
  obtain ⟨r, hr⟩ := (s.present_iff p).1 hp
  exact k.gain s p r _ hr ⟨rfl, id, id⟩ h

theorem KeptByBlocks.mute {s : State} (bs : List Byte) (h : P s) : P (s.mute bs).1 := by
  unfold State.mute
  repeat' split
  any_goals exact h
  next hp => exact k.setCommand _ true (by simpa using hp) h

theorem KeptByBlocks.unmute {s : State} (bs : List Byte) (h : P s) : P (s.unmute bs).1 := by
  unfold State.unmute
  repeat' split
  any_goals exact h
  next hp => exact k.setCommand _ false (by simpa using hp) h

/-! ### Alarm commands -/

theorem KeptByBlocks.ackAlarm {s : State} (bs : List Byte) (h : P s) : P (s.ackAlarm bs).1 := by
  unfold State.ackAlarm
  split
  · exact h
  · split
    · exact h
    · refine foldl_keeps (P := fun a : Acked => P a.state) (fun a r ha => ?_) _ _ h
      unfold ackRule
      simp only
      split
      · exact k.rule _ r _ ⟨rfl, rfl, .inl rfl⟩ ha
      · exact k.rule _ r _ ⟨rfl, rfl, .inl rfl⟩ ha
      · exact k.clear r _ _ ha
      · exact ha
      · exact ha

theorem KeptByBlocks.enableRule {s : State} (bs : List Byte) (h : P s) : P (s.enableRule bs).1 := by
  unfold State.enableRule
  split
  · exact h
  · split
    · exact h
    · simp only
      split
      · exact h
      · exact k.tables s _ (.setEnabled s _ true) h

theorem KeptByBlocks.disableRule {s : State} (bs : List Byte) (h : P s) : P (s.disableRule bs).1 := by
  unfold State.disableRule
  split
  · exact h
  · split
    · exact h
    · simp only
      split
      · exact k.tables _ _ (.setEnabled _ _ false) (k.quietRecord _ _ h)
      · exact h

/-! ### RESTORE PRIMARY, the integrator and the contexts -/

theorem KeptByBlocks.restoreChannel {s : State} (c : ChannelId) (h : P s) : P (s.restoreChannel c) := by
  unfold State.restoreChannel
  rcases changeSource_cases s c .primary with e | e <;> rw [e]
  · exact k.restore s c h
  · exact k.recomputeCut (s := (s.setSource c .primary).leaveSwitched c) c true (k.restore s c h)

theorem KeptByBlocks.restorePrimary {s : State} (bs : List Byte) (h : P s) : P (s.restorePrimary bs).1 := by
  unfold State.restorePrimary
  split
  · exact h
  · split
    · exact h
    · exact foldl_keeps (fun _ c ht => k.restoreChannel c ht) _ _ h

theorem KeptByBlocks.resetIntegrator {s : State} (bs : List Byte) (h : P s) : P (s.resetIntegrator bs).1 := by
  unfold State.resetIntegrator
  split
  · exact h
  · split
    · exact h
    · simp only
      split
      · exact h
      · exact k.loud s _ _ ⟨id, fun _ => ⟨Nat.zero_le _, Nat.zero_le _⟩⟩ h

theorem KeptByBlocks.loadRecord {a : Loaded} (bs : List Byte) (p : ProgId) (h : P a.state) : P (loadRecord a bs p).state := by
  unfold Machine.loadRecord
  split
  · exact h
  · split
    · next happ =>
      obtain ⟨hhist, hint⟩ := loadedLoud_bounded (readContext_count_le bs) (State.appliesTo_inBounds happ)
      unfold State.applyContext
      simp only
      split
      · exact h
      · next r hr =>
        exact k.gain _ p r _ hr ⟨rfl, fun _ => Nat.zero_le _, fun _ => clampGain_mem r _⟩
          (k.loud _ p _ ⟨fun _ => hhist, fun _ => hint⟩ h)
    · exact h

theorem KeptByBlocks.loadRecords : ∀ (rs : List (List Byte)) {a : Loaded}, P a.state → P (loadRecords a rs).state
  | [], _, h => h
  | bs :: rs, _, h => KeptByBlocks.loadRecords rs (k.loadRecord bs _ h)

theorem KeptByBlocks.loadContexts {s : State} (bs : List Byte) (h : P s) : P (s.loadContexts bs).1 := by
  unfold State.loadContexts
  split
  · split
    · exact h
    · split
      · exact h
      · exact k.loadRecords (a := { state := s, applied := 0, skipped := 0 }) _ h
  · exact h

/-! ### RESET DOMAINS -/

theorem KeptByBlocks.resetGain {s : State} (h : P s) : P s.resetGain := by
  refine forProgs_keeps (fun t p ht => ?_) h
  split
  · next hp =>
    obtain ⟨r, hr⟩ := (t.present_iff p).1 hp
    exact k.gain t p r _ hr ⟨rfl, fun _ => Nat.zero_le _, fun _ => by simp [InLimits, resetGainOf]⟩ ht
  · exact ht

theorem KeptByBlocks.resetLink {s : State} (l : LinkId) (h : P s) : P (s.resetLink l) := by
  have hset := k.links s (s.rx.set l.val (resetLinkReceiver s.rx[l])) (s.cv.set l.val (resetLinkConv s.cv[l])) s.free h
  unfold State.resetLink
  simp only
  split
  · exact k.report l _ hset (fun hp => hp.takeReport _)
  · exact hset

theorem KeptByBlocks.resetSources {s : State} (h : P s) : P s.resetSources := by
  have hempty := k.emptySwitched s h
  refine (forChannels_keeps (P := fun t => P t ∧ ∀ c, Unswitched t c) (fun t c ht => ?_) ⟨hempty, fun c r => ?_⟩).1
  · refine ⟨k.changeToPrimary c (.inr (ht.2 c)) ht.1, fun d => ?_⟩
    rw [changeSource_frame]
    exact ht.2 d
  · simp [State.setAlarm, hasMember]

theorem KeptByBlocks.resetLinks {s : State} (h : P s) : P s.resetLinks :=
  k.resetSources (forLinks_keeps (fun _ l ht => k.resetLink l ht) h)

theorem KeptByBlocks.resetDelay {s : State} (h : P s) : P s.resetDelay :=
  forChannels_keeps (fun t c ht => k.line t c _ (fun _ _ => ⟨targetFor_le _ _ _, targetFor_le _ _ _⟩) ht) h

omit k in
theorem State.part_keeps {P : State → Prop} {s : State} {due : Bool} {f : State → State} (hf : ∀ t, P t → P (f t))
    (h : P s) : P (s.part due f) := by
  unfold State.part; split
  · exact hf s h
  · exact h

theorem KeptByBlocks.resetParts {s : State} (mask : Nat) (h : P s) : P (s.resetParts mask) := by
  unfold State.resetParts
  simp only
  refine State.part_keeps (fun _ ht => k.tookFree ht) ?_
  refine State.part_keeps (fun _ ht => k.resetAlarms ht) ?_
  refine State.part_keeps (fun _ ht => k.resetLinks ht) ?_
  refine State.part_keeps (fun _ ht => k.resetDelay ht) ?_
  refine State.part_keeps (fun _ ht => k.resetAlarms ht) ?_
  refine State.part_keeps (fun _ ht => k.resetLinks ht) ?_
  refine State.part_keeps (fun _ ht => k.resetGain ht) ?_
  exact State.part_keeps k.clearMeasure h

theorem KeptByBlocks.resetDomains {s : State} (bs : List Byte) (h : P s) : P (s.resetDomains bs).1 := by
  unfold State.resetDomains
  repeat' split
  any_goals exact h
  exact k.port _ _ id (k.resetParts _ h)

/-! ### Every command -/

omit k in
/-- The reads that leave the state as it is. -/
theorem readCommands_state (s : State) (bs : List Byte) :
    (s.identify bs).1 = s ∧ (s.readLink bs).1 = s ∧ (s.readSlice bs).1 = s ∧ (s.readEntries bs).1 = s ∧
    (s.readContexts bs).1 = s := by
  dsimp only [State.identify, State.readLink, State.readSlice, State.readEntries, State.readContexts]
  refine ⟨?_, ?_, ?_, ?_, ?_⟩ <;> repeat' split
  all_goals rfl

omit k in
/-- What every command of the table satisfies, and UNKNOWN CODE, the command of every code satisfies (R165). -/
theorem commandOf_cases {Q : (State → List Byte → State × List Byte) → Prop} (h : ∀ f ∈ [State.identify, State.readStatus,
    State.readLink, State.readProgramme, State.readSlice, State.readEntries, State.writeEntries, State.fillEntries,
    State.takeCommandOf, State.cancelTake, State.setDelay, State.setTarget, State.setTrim, State.mute, State.unmute,
    State.ackAlarm, State.enableRule, State.disableRule, State.restorePrimary, State.resetIntegrator, State.readContexts,
    State.loadContexts, State.resetDomains, State.unknownCode], Q f) (code : Byte) : Q (commandOf code) := by
  unfold Machine.commandOf
  split <;> exact h _ (by simp only [List.mem_cons, true_or, or_true])

theorem KeptByBlocks.commandOf (code : Byte) (s : State) (bs : List Byte) (h : P s) : P (commandOf code s bs).1 := by
  obtain ⟨hidentify, hlink, hslice, hentries, hcontexts⟩ := readCommands_state s bs
  refine commandOf_cases (Q := fun f => P (f s bs).1) ?_ code
  simp only [List.forall_mem_cons, List.not_mem_nil, false_imp_iff, implies_true, and_true]
  rw [hidentify, hlink, hslice, hentries, hcontexts]
  exact ⟨h, k.readStatus bs h, h, k.readProgramme bs h, h, h, k.writeEntries bs h, k.fillEntries bs h, k.takeCommandOf bs h,
    k.cancelTake bs h, k.setDelay bs h, k.setTarget bs h, k.setTrim bs h, k.mute bs h, k.unmute bs h, k.ackAlarm bs h,
    k.enableRule bs h, k.disableRule bs h, k.restorePrimary bs h, k.resetIntegrator bs h, h, k.loadContexts bs h,
    k.resetDomains bs h, h⟩

theorem KeptByBlocks.execute {s : State} (serves : Byte → Bool) {f : State → List Byte → State × List Byte}
    (hf : ∀ (t : State) (bs : List Byte), P t → P (f t bs).1) (h : P s) : P (s.execute serves f) := by
  rcases execute_cases s serves f with e | ⟨m, rest, ⟨hm, -, -, -⟩, -, e⟩ <;> rw [e]
  · exact h
  · have htake : P (s.takeCommand rest) := by
      refine k.frame (s.setPort { s.port with commands := rest }) { s.frame with executorTurn := false } rfl
        (k.port s _ (fun ⟨hrelay, hcommands, hreplies, hnotices⟩ => ⟨hrelay, ?_, hreplies, hnotices⟩) h)
      rw [hm] at hcommands
      exact (Nat.le_succ _).trans hcommands
    unfold State.answer
    split
    · exact hf _ _ htake
    · exact k.port _ _ (fun hp => hp.placeReply _) (hf _ _ htake)

end

end Sys2Proof.Machine
end

section
/-! PROOF. What every step keeps: the receivers, the house frame, and the step itself. -/

namespace Sys2Proof.Machine

/-! ### Timebase: the steps that leave the slice phase and the rate -/

/-- The slice phase and the house rate stand. -/
def SamePhase (t x : Timebase) : Prop := x.phase = t.phase ∧ x.rate96 = t.rate96

theorem samePhase_goodCountComplete (t : Timebase) : SamePhase t (goodCountComplete t) := by
  unfold goodCountComplete completeGoodCount; split <;> exact ⟨rfl, rfl⟩

theorem samePhase_refinementComplete (t : Timebase) : SamePhase t (refinementComplete t) := by
  unfold refinementComplete; split <;> exact ⟨rfl, rfl⟩

theorem samePhase_settleTimebase (t : Timebase) : SamePhase t (settleTimebase t) := by
  obtain ⟨hphase, hrate⟩ := samePhase_goodCountComplete t
  obtain ⟨hphase', hrate'⟩ := samePhase_refinementComplete (goodCountComplete t)
  exact ⟨hphase'.trans hphase, hrate'.trans hrate⟩

theorem samePhase_testPulse (held tick : Nat) (t : Timebase) : SamePhase t (testPulse held tick t) := by
  unfold testPulse
  split
  · exact ⟨rfl, rfl⟩
  · simp only; split <;> exact ⟨rfl, rfl⟩

theorem samePhase_acceptPulse (tick : Nat) (t : Timebase) : SamePhase t (acceptPulse tick t) := by
  unfold acceptPulse refine SamePhase
  simp only
  split
  · exact ⟨rfl, rfl⟩
  · split <;> exact ⟨rfl, rfl⟩

theorem samePhase_refPulse (tick : Nat) (t : Timebase) : SamePhase t (refPulse tick t) := by
  have hset := samePhase_settleTimebase t
  unfold refPulse
  generalize settleTimebase t = u at hset ⊢
  simp only
  split
  · exact ⟨(samePhase_testPulse _ tick u).1.trans hset.1, (samePhase_testPulse _ tick u).2.trans hset.2⟩
  · exact ⟨(samePhase_testPulse _ tick u).1.trans hset.1, (samePhase_testPulse _ tick u).2.trans hset.2⟩
  · exact hset
  · split
    · exact ⟨(samePhase_acceptPulse tick u).1.trans hset.1, (samePhase_acceptPulse tick u).2.trans hset.2⟩
    · exact hset

theorem samePhase_expectedReached (t : Timebase) : SamePhase t (expectedReached t) := by
  have hset := samePhase_settleTimebase t
  unfold expectedReached
  simp only
  split <;> exact hset

theorem samePhase_windowClose (t : Timebase) : SamePhase t (windowClose t) := by
  have hset := samePhase_settleTimebase t
  unfold windowClose enterHoldover
  simp only
  split
  · split <;> exact hset
  · exact hset

theorem samePhase_pulsesLost (t : Timebase) : SamePhase t (pulsesLost t) := by
  have hset := samePhase_settleTimebase t
  unfold pulsesLost
  simp only
  split <;> exact hset

section
variable {P : State → Prop} (k : KeptByBlocks P)
include k

/-! ### Receivers -/

theorem KeptByBlocks.rx {s : State} (rx : Vector Receiver 4) (h : P s) : P { s with rx := rx } := k.links s rx s.cv s.free h

theorem KeptByBlocks.leftFramed {s : State} (l : LinkId) (h : P s) : P (s.leftFramed l) :=
  k.report l _ (k.cv (s.darken l).cv h) (fun hp => hp.takeReport _)

theorem KeptByBlocks.arrive {s : State} (l : LinkId) (x : SixteenSamples) (h : P s) : P (s.arrive l x) := by
  rw [arrive_frame]
  exact k.links s s.rx _ _ h

theorem KeptByBlocks.lineTransition {s : State} (l : LinkId) (h : P s) : P (s.lineTransition l) := by
  unfold State.lineTransition
  split <;> exact k.rx _ h

theorem KeptByBlocks.activityTimeout {s : State} (l : LinkId) (h : P s) : P (s.activityTimeout l) := by
  unfold State.activityTimeout
  simp only
  split
  · exact k.rx _ h
  · exact k.rx _ h
  · exact k.leftFramed l (k.rx _ h)

theorem KeptByBlocks.alignmentWordFound {s : State} (l : LinkId) (look : WordLook) (h : P s) :
    P (s.alignmentWordFound l look) := by
  unfold State.alignmentWordFound
  split
  · split <;> exact k.rx _ h
  · exact h

theorem KeptByBlocks.takeFrame {s : State} (l : LinkId) (f : LinkFrame) (h : P s) : P (s.takeFrame l f) := by
  have hreport (x : Receiver) (samples : SixteenSamples) (r : Report) : P (((s.setRx l x).arrive l samples).report l r) :=
    k.report l r (k.arrive l samples (k.rx _ h)) (fun hp => hp.takeReport r)
  unfold State.takeFrame
  split
  · split
    · unfold State.alignmentFault
      simp only
      split
      · exact hreport _ _ _
      · exact k.leftFramed l (k.rx _ h)
    · split
      · exact hreport _ _ _
      · exact hreport _ _ _
  · exact h

/-! ### What a house frame still owes -/

theorem KeptByBlocks.takeSwap {s : State} (h : P s) : P s.takeSwap := by
  unfold State.takeSwap
  split
  · next hdue =>
    refine k.swap _ ?_ (k.settleAlarms h)
    have htables := (sameButRules_eqs (settleAlarms_rules s)).2.2.2.1
    rw [htables]
    exact beq_iff_eq.1 (Bool.and_eq_true_iff.1 hdue).1
  · exact h

theorem KeptByBlocks.completeCopy {s : State} (h : P s) : P s.completeCopy := by
  unfold State.completeCopy
  split
  · exact k.tables (s.setFrame { s.frame with copyDue := false }) _ (.copy (x := .editing) nofun) (k.frame s _ rfl h)
  · exact h

theorem KeptByBlocks.portFrame {s : State} (p : Port) (f : Frame) (hp : PortBounded s.port → PortBounded p)
    (hf : f.boundaryDue = s.frame.boundaryDue) (h : P s) : P { s with port := p, frame := f } :=
  k.frame (s.setPort p) f hf (k.port s p hp h)

theorem KeptByBlocks.heldReplyPlaced {s : State} (h : P s) : P s.heldReplyPlaced := by
  unfold State.heldReplyPlaced
  split
  · split
    · exact h
    · refine k.portFrame _ _ (fun ⟨hrelay, hcommands, hreplies, hnotices⟩ => ?_) rfl h
      split
      · exact ⟨hrelay, hcommands, by simp; omega, hnotices⟩
      · exact ⟨hrelay, hcommands, hreplies, hnotices⟩
  · exact h

theorem KeptByBlocks.executorTurnTaken {s : State} (h : P s) : P s.executorTurnTaken := by
  unfold State.executorTurnTaken
  split
  · exact k.heldReplyPlaced h
  · exact k.execute _ (k.commandOf _) (k.heldReplyPlaced h)

theorem KeptByBlocks.messageBoundary {s : State} (h : P s) : P s.messageBoundary := by
  unfold State.messageBoundary
  split
  · split
    · exact k.frame s _ rfl h
    · next p hserve => exact k.portFrame _ _ (fun hp => show PortBounded p from hp.serve hserve) rfl h
  · exact h

omit k in
/-- What a house frame owes after its slice boundary. -/
def State.settleRest (s : State) : State :=
  let s := s.settleAlarms
  let s := forProgs (fun s p => (s.queueService p).rampStep p) s
  let s := forChannels (fun s c => ((s.slewStep c).cutJump c).cutEnd c) s
  let s := s.completeCopy
  let s := s.setPort s.port.assemblerTimeout
  s.executorTurnTaken.messageBoundary

omit k in
theorem State.settleFrame_eq (s : State) :
    s.settleFrame = (forLinks State.settleLink s.takeSwap).sliceBoundary.settleRest := by
  unfold State.settleFrame State.settleRest
  rfl

theorem KeptByBlocks.settleRest {s : State} (h : P s) : P s.settleRest := by
  unfold State.settleRest
  simp only
  refine k.messageBoundary (k.executorTurnTaken (k.port _ _ PortBounded.assemblerTimeout (k.completeCopy ?_)))
  refine forChannels_keeps (fun t c ht => ?_) (forProgs_keeps (fun t p ht => ?_) (k.settleAlarms h))
  · exact (k.lineSteps c (k.lineSteps c (k.lineSteps c ht).1).2.1).2.2
  · exact k.rampStep p (k.queueService p ht)

theorem KeptByBlocks.settleFrame {s : State} (h : P s) : P s.settleFrame := by
  rw [State.settleFrame_eq]
  exact k.settleRest (k.sliceBoundary (forLinks_keeps (fun _ l ht => k.settleLink l ht) (k.takeSwap h)))

end

/-! ### The slice boundary of a frame is taken before it ends -/

theorem swap_boundaryDue (s : State) : s.swap.frame.boundaryDue = s.frame.boundaryDue := by
  unfold State.swap
  simp only
  rw [forChannels_same (view := fun t => t.frame.boundaryDue) (fun t c => ?line),
    forProgs_same (view := fun t => t.frame.boundaryDue) (fun t p => ?prog),
    forChannels_same (view := fun t => t.frame.boundaryDue) (fun t c => ?source)]
  case line =>
    unfold State.swapLine
    simp only
    split
    · rfl
    · split
      · rfl
      · split <;> rfl
  case prog =>
    unfold State.swapProgramme
    split
    · rfl
    · rfl
    · rfl
    · split
      · rfl
      · simp only; split <;> rfl
  case source => unfold State.swapSource; split <;> rfl
  rfl

/-- Rolling the records touches the records alone (R84). -/
theorem rollRecords_frame (s : State) (n : BitVec 32) : s.rollRecords n = { s with meas := (s.rollRecords n).meas } := by
  unfold State.rollRecords
  exact forChannels_keeps (P := fun t => t = { s with meas := t.meas })
    (fun t c ht => by rw [State.setMeas, ht]) rfl

theorem boundaryDone_kept : KeptByBlocks fun s => s.frame.boundaryDue = false where
  links _ _ _ _ h := h
  lost _ h := h
  port _ _ _ h := h
  frame _ _ hf h := hf.trans h
  tables _ _ _ h := h
  line _ _ _ _ h := h
  toPrimary _ _ _ h := h
  restore _ _ h := h
  emptySwitched _ h := h
  gain _ _ _ _ _ _ h := h
  loud _ _ _ _ h := h
  due _ _ _ h := h
  rule _ _ _ _ h := h
  raise s d ds _ h := by rw [applyAction_frame]; exact h
  hold _ _ _ h := h
  release s r ds h := by rw [releaseAction_frame]; exact h
  evaluate s h := by rw [evaluateRules_frame]; exact h
  clearMeasure _ h := h
  roll s _ _ := by rw [rollRecords_frame]; rfl
  window _ _ _ _ h := h
  swap s _ h := (swap_boundaryDue s).trans h

theorem evaluateBoundary_sameFrame (s : State) : s.evaluateBoundary.frame = s.frame := by
  rw [evaluateBoundary_frame]

theorem boundaryWork_done (s : State) : s.boundaryWork.frame.boundaryDue = false := by
  unfold State.boundaryWork
  have hroll : (s.raiseSlice.rollRecords s.tb.slice).frame.boundaryDue = false := by rw [rollRecords_frame]; rfl
  exact forProgs_keeps (P := fun t : State => t.frame.boundaryDue = false) (f := State.programmeBoundary)
    (fun t p ht => boundaryDone_kept.programmeBoundary p ht) hroll

theorem sliceBoundary_done (s : State) : s.sliceBoundary.frame.boundaryDue = false := by
  unfold State.sliceBoundary
  split
  · rw [evaluateBoundary_sameFrame]
    exact boundaryWork_done s
  · next h => exact Bool.eq_false_iff.2 h

theorem settleFrame_boundaryDone (s : State) : s.settleFrame.frame.boundaryDue = false := by
  rw [State.settleFrame_eq]
  exact boundaryDone_kept.settleRest (sliceBoundary_done _)

/-! ### A house frame begins -/

section
variable {P : State → Prop} (k : KeptByBlocks P)
include k

theorem KeptByBlocks.beginLink {s : State} (l : LinkId) (h : P s.markBoundary) : P (s.beginLink l).markBoundary :=
  k.cv (s.beginLink l).cv h

omit k in
/-- A line that begins a house frame keeps its delay and its target. -/
theorem beginLine_frame (l : Line) : (beginLine l).cur = l.cur ∧ (beginLine l).tgt = l.tgt := by
  unfold beginLine
  simp only
  split
  · exact ⟨rfl, rfl⟩
  · split <;> exact ⟨rfl, rfl⟩
  · split <;> exact ⟨rfl, rfl⟩
  · exact ⟨rfl, rfl⟩

theorem KeptByBlocks.beginLine {s : State} (c : ChannelId) (h : P s.markBoundary) :
    P (s.setLine c (beginLine s.lines[c])).markBoundary := by
  obtain ⟨hcur, htgt⟩ := beginLine_frame s.lines[c]
  exact k.line s.markBoundary c _ (fun hc ht => ⟨hcur ▸ hc, htgt ▸ ht⟩) h

theorem KeptByBlocks.beginProgramme {s : State} (p : ProgId) (h : P s.markBoundary) :
    P (s.beginProgramme p).markBoundary := by
  unfold State.beginProgramme
  split
  · next r hr => exact k.gain s.markBoundary p r _ hr ⟨rfl, id, id⟩ h
  · exact h

theorem KeptByBlocks.beginArbiter {s : State} (h : P s) : P s.beginArbiter := by
  unfold State.beginArbiter
  split
  · exact k.frame s _ rfl h
  · split
    · exact k.portFrame _ _ id rfl h
    · exact k.portFrame _ _ id rfl h

theorem KeptByBlocks.openFrame {s : State} (b : Nat) (h : P (s.setTb (beginFrame b s.tb)).markBoundary) :
    P (s.openFrame b) := by
  unfold State.openFrame
  simp only
  have hprogs : P (forProgs State.beginProgramme
      (forChannels (fun s c => s.setLine c (Machine.beginLine s.lines[c]))
        (forLinks State.beginLink (s.setTb (beginFrame b s.tb))))).markBoundary :=
    forProgs_keeps (P := fun t => P t.markBoundary) (fun _ p ht => k.beginProgramme p ht)
      (forChannels_keeps (P := fun t => P t.markBoundary) (fun _ c ht => k.beginLine c ht)
        (forLinks_keeps (P := fun t => P t.markBoundary) (fun _ l ht => k.beginLink l ht) h))
  generalize forProgs State.beginProgramme _ = t at hprogs ⊢
  have hlatch : P t.latchFrame := k.frame t.markBoundary t.latchFrame.frame rfl hprogs
  exact k.beginArbiter (k.tables _ _ (.copyBack _) hlatch)

end

/-! ### The step -/

section
variable {P : State → Prop} (k : KeptBySteps P)
include k

/-- A house frame keeps the property, and stops only on a region outside the store (log entry 17). -/
theorem KeptBySteps.houseFrame {s t : State} (h : P s) (ht : s.houseFrame = .next t) : P t := by
  obtain ⟨hphase, hrate⟩ := samePhase_settleTimebase s.tb
  have htb := k.timebase s _ hphase hrate h
  unfold State.houseFrame at ht
  simp only at ht
  split at ht
  · cases ht; exact htb
  · next b _ =>
    split at ht
    · obtain rfl := Host.Outcome.next.inj ht
      have hsettled := k.settleFrame htb
      exact k.openFrame b (k.frameEnds _ b (settleFrame_boundaryDone _) hsettled)
    · cases ht

theorem KeptBySteps.setTb {s : State} {x : Timebase} (hx : SamePhase s.tb x) (h : P s) : P (s.setTb x) :=
  k.timebase s x hx.1 hx.2 h

theorem KeptBySteps.exec {s t : State} (i : Instr) (h : P s) (ht : exec i s = .next t) : P t := by
  have hcmd (serves : Byte → Bool) {f : State → List Byte → State × List Byte}
      (hf : ∀ (t : State) (bs : List Byte), P t → P (f t bs).1) : P (s.execute serves f) := k.execute serves hf h
  have hread {f : State → List Byte → State × List Byte} (hf : ∀ (t : State) (bs : List Byte), (f t bs).1 = t)
      (t : State) (bs : List Byte) (ht : P t) : P (f t bs).1 := (hf t bs).symm ▸ ht
  cases i with
  | houseFrame => exact k.houseFrame h ht
  | hardwareReset cause rate96 addr mlk => cases ht; exact k.hardwareReset s cause rate96 addr mlk h
  | refPulse tick => cases ht; exact k.setTb (samePhase_refPulse tick _) h
  | expectedInstantReached => cases ht; exact k.setTb (samePhase_expectedReached _) h
  | acceptanceWindowClose => cases ht; exact k.setTb (samePhase_windowClose _) h
  | pulsesLost => cases ht; exact k.setTb (samePhase_pulsesLost _) h
  | goodCountComplete => cases ht; exact k.setTb (samePhase_goodCountComplete _) h
  | refinementBlockComplete => cases ht; exact k.setTb (samePhase_refinementComplete _) h
  | sliceBoundary => cases ht; exact k.sliceBoundary h
  | lineTransition l => cases ht; exact k.lineTransition l h
  | activityTimeout l => cases ht; exact k.activityTimeout l h
  | alignmentWordFound l look => cases ht; exact k.alignmentWordFound l look h
  | linkFrame l f => cases ht; exact k.takeFrame l f h
  | assemblerTimeout => cases ht; exact k.port s _ PortBounded.assemblerTimeout h
  | leaveDark l => cases ht; exact (k.converterSteps l h).1
  | acquisitionEnd l => cases ht; exact (k.converterSteps l h).2.1
  | unsupportedBlockEnd l => cases ht; exact (k.converterSteps l h).2.2.1
  | directAcquisitionEnd l => cases ht; exact (k.converterSteps l h).2.2.2.1
  | servoUpdate l => cases ht; exact (k.converterSteps l h).2.2.2.2.1
  | spliceJump l => cases ht; exact (k.converterSteps l h).2.2.2.2.2.1
  | spliceEnd l => cases ht; exact (k.converterSteps l h).2.2.2.2.2.2
  | slewStep c => cases ht; exact (k.lineSteps c h).1
  | cutJump c => cases ht; exact (k.lineSteps c h).2.1
  | cutEnd c => cases ht; exact (k.lineSteps c h).2.2
  | queueService p => cases ht; exact k.queueService p h
  | rampStep p => cases ht; exact k.rampStep p h
  | alarmRaise r => cases ht; exact k.dueStep r .raising h
  | alarmTimerOut r => cases ht; exact k.dueStep r .timerOut h
  | takeSwap => cases ht; exact k.takeSwap h
  | copyBackComplete => cases ht; exact k.completeCopy h
  | heldReplyPlaced => cases ht; exact k.heldReplyPlaced h
  | messageBoundary => cases ht; exact k.messageBoundary h
  | identify => cases ht; exact hcmd _ (hread fun t bs => (readCommands_state t bs).1)
  | readStatus => cases ht; exact hcmd _ fun _ bs => k.readStatus bs
  | readLink => cases ht; exact hcmd _ (hread fun t bs => (readCommands_state t bs).2.1)
  | readProgramme => cases ht; exact hcmd _ fun _ bs => k.readProgramme bs
  | readSlice => cases ht; exact hcmd _ (hread fun t bs => (readCommands_state t bs).2.2.1)
  | readEntries => cases ht; exact hcmd _ (hread fun t bs => (readCommands_state t bs).2.2.2.1)
  | writeEntries => cases ht; exact hcmd _ fun _ bs => k.writeEntries bs
  | fillEntries => cases ht; exact hcmd _ fun _ bs => k.fillEntries bs
  | take => cases ht; exact hcmd _ fun _ bs => k.takeCommandOf bs
  | cancelTake => cases ht; exact hcmd _ fun _ bs => k.cancelTake bs
  | setDelay => cases ht; exact hcmd _ fun _ bs => k.setDelay bs
  | setTarget => cases ht; exact hcmd _ fun _ bs => k.setTarget bs
  | setTrim => cases ht; exact hcmd _ fun _ bs => k.setTrim bs
  | mute => cases ht; exact hcmd _ fun _ bs => k.mute bs
  | unmute => cases ht; exact hcmd _ fun _ bs => k.unmute bs
  | ackAlarm => cases ht; exact hcmd _ fun _ bs => k.ackAlarm bs
  | enableRule => cases ht; exact hcmd _ fun _ bs => k.enableRule bs
  | disableRule => cases ht; exact hcmd _ fun _ bs => k.disableRule bs
  | restorePrimary => cases ht; exact hcmd _ fun _ bs => k.restorePrimary bs
  | resetIntegrator => cases ht; exact hcmd _ fun _ bs => k.resetIntegrator bs
  | readContext => cases ht; exact hcmd _ (hread fun t bs => (readCommands_state t bs).2.2.2.2)
  | loadContext => cases ht; exact hcmd _ fun _ bs => k.loadContexts bs
  | resetDomains => cases ht; exact hcmd _ fun _ bs => k.resetDomains bs
  | unknownCode => cases ht; exact hcmd _ fun _ _ => id

theorem KeptBySteps.step {s t : State} (h : P s) (ht : step s = .next t) : P t := by
  unfold Machine.step at ht
  split at ht
  · cases ht; exact h
  · next i rest _ => exact k.exec i (k.pending s rest h) ht

end

end Sys2Proof.Machine
end

section
/-! PROOF. The swap (R146, R147), said item by item: what it leaves of a channel's source and its place in the switched sets, of a
programme's loudness and gain and its place in the muted sets, and of a line. -/

namespace Sys2Proof.Machine

theorem activeBank_swapTables (t : Tables) : activeBank (swapTables t) = standbyBank t := by
  unfold activeBank standbyBank swapTables
  cases t.marker <;> rfl

theorem standbyBank_swapTables (t : Tables) : standbyBank (swapTables t) = activeBank t := by
  unfold activeBank standbyBank swapTables
  cases t.marker <;> rfl

/-- Equal rules but for the switched sets (R28). -/
theorem leaveSwitched_rule (s : State) (c : ChannelId) (r : RuleId) : (s.leaveSwitched c).alarm.rules[r] =
    { s.alarm.rules[r] with switched := eraseMember s.alarm.rules[r].switched c } := by
  simp [State.leaveSwitched]

/-- Equal rules but for the muted sets (R147). -/
theorem leaveMuted_rule (s : State) (p : ProgId) (r : RuleId) : (s.leaveMuted p).alarm.rules[r] =
    { s.alarm.rules[r] with muted := eraseMember s.alarm.rules[r].muted p } := by
  simp [State.leaveMuted]

/-! ### The router's answer (R28) -/

section
variable (old : Routing) (s : State)

/-- The router's answer touches the sources, the switched sets and the selected sources of the frame alone. -/
def SwappedSources (s t : State) : Prop :=
  t = { s with sources := t.sources, alarm := { s.alarm with rules := t.alarm.rules },
               frame := { s.frame with selected := t.frame.selected } } ∧
  ∀ r : RuleId, t.alarm.rules[r] = { s.alarm.rules[r] with switched := t.alarm.rules[r].switched }

theorem swapSource_frame (c : ChannelId) {t : State} (h : SwappedSources s t) : SwappedSources s (t.swapSource old c) := by
  unfold State.swapSource
  split
  · exact h
  · obtain ⟨hframe, hrules⟩ := h
    refine ⟨?_, fun r => ?_⟩
    · rw [State.leaveSwitched, State.setSource, State.setFrame, State.setAlarm, hframe]
    · have hrule := leaveSwitched_rule (t.setSource c .primary) c r
      simp only [State.setFrame_alarm, hrule, State.setSource_alarm]
      rw [hrules r]

theorem swapSources_frame : SwappedSources s (forChannels (State.swapSource old) s) :=
  forChannels_keeps (P := SwappedSources s) (fun _ c ht => swapSource_frame old s c ht) ⟨rfl, fun _ => rfl⟩

/-- What the router's answer can change of a channel: its source state, its selected source of the frame, and its place in the
switched sets. -/
def sourceView (t : State) (c : ChannelId) : SourceState × Option Source × (RuleId → Bool) :=
  (t.sources[c], t.frame.selected[c], fun r => hasMember t.alarm.rules[r].switched c)

theorem sourceView_swapSource_ne (t : State) {c d : ChannelId} (h : d ≠ c) :
    sourceView (t.swapSource old c) d = sourceView t d := by
  have hv : c.val ≠ d.val := fun e => h (Fin.ext e.symm)
  unfold State.swapSource
  split
  · rfl
  · simp [sourceView, hv, hasMember_erase, h, State.leaveSwitched]

theorem swapSources_item (c : ChannelId) : sourceView (forChannels (State.swapSource old) s) c =
    if old.slotMap[c] = s.active.slotMap[c] then sourceView s c
    else (.primary, s.active.slotMap[c].primary, fun _ => false) := by
  obtain ⟨t, ⟨ht, -⟩, hview, hitem⟩ := forChannels_item (view := sourceView) (f := State.swapSource old)
    (P := SwappedSources s) (fun t _ _ h => sourceView_swapSource_ne old t h)
    (fun _ c ht => swapSource_frame old s c ht) (s := s) ⟨rfl, fun _ => rfl⟩ c
  have hactive : t.active = s.active := by rw [ht]; rfl
  rw [hitem]
  unfold State.swapSource
  rw [hactive]
  split
  · exact hview
  · have hprimary : t.active.slotMap[c].primary = s.active.slotMap[c].primary := by rw [hactive]
    simpa [sourceView, hasMember_erase, State.leaveSwitched, State.selectedOf, selectedSource] using hprimary

end

/-! ### The answers for a programme (R94, R104, R106, R115, R147) -/

/-- The loudness state of a programme after a swap from its old record to its new one. -/
def swappedLoud (old new : Option ProgRecord) (l : Loud) : Loud :=
  match old, new with
  | some o, some n => if o = n ∨ sameMembers o.members n.members = true then l else clearedLoud
  | none, none => l
  | _, _ => clearedLoud

/-- The gain state of a programme after a swap from its old record to its new one. -/
def swappedGain (old new : Option ProgRecord) (g : Gain) : Gain :=
  match old, new with
  | some o, some n => if o = n then g else swapGain o n g
  | none, none => g
  | none, some n => { freshGain with frameTrim := n.trim }
  | some _, none => freshGain

/-- The programme has become absent. -/
def leaves (old new : Option ProgRecord) : Bool := old.isSome && new.isNone

section
variable (old : Routing) (s : State)

/-- The answers for the programmes touch loudness, gain and the muted sets alone. -/
def SwappedProgrammes (s t : State) : Prop :=
  t = { s with loud := t.loud, gain := t.gain, alarm := { s.alarm with rules := t.alarm.rules } } ∧
  ∀ r : RuleId, t.alarm.rules[r] = { s.alarm.rules[r] with muted := t.alarm.rules[r].muted }

theorem swapProgramme_frame (p : ProgId) {t : State} (h : SwappedProgrammes s t) :
    SwappedProgrammes s (t.swapProgramme old p) := by
  obtain ⟨hframe, hrules⟩ := h
  unfold State.swapProgramme
  split
  · exact ⟨hframe, hrules⟩
  · exact ⟨by rw [State.setLoud, State.setGain, hframe], hrules⟩
  · refine ⟨by rw [State.leaveMuted, State.setLoud, State.setGain, State.setAlarm, hframe], fun r => ?_⟩
    rw [leaveMuted_rule]
    simp only [State.setGain_alarm, State.setLoud_alarm]
    rw [hrules r]
  · split
    · exact ⟨hframe, hrules⟩
    · simp only
      split
      · exact ⟨by rw [State.setGain, hframe], hrules⟩
      · exact ⟨by rw [State.setLoud, State.setGain, hframe], hrules⟩

theorem swapProgrammes_frame : SwappedProgrammes s (forProgs (State.swapProgramme old) s) :=
  forProgs_keeps (P := SwappedProgrammes s) (fun _ p ht => swapProgramme_frame old s p ht) ⟨rfl, fun _ => rfl⟩

/-- What the answers can change of a programme: its loudness, its gain, and its place in the muted sets. -/
def programmeView (t : State) (p : ProgId) : Loud × Gain × (RuleId → Bool) :=
  (t.loud[p], t.gain[p], fun r => hasMember t.alarm.rules[r].muted p)

theorem programmeView_swapProgramme_ne (t : State) {p q : ProgId} (h : q ≠ p) :
    programmeView (t.swapProgramme old p) q = programmeView t q := by
  have hv : p.val ≠ q.val := fun e => h (Fin.ext e.symm)
  unfold State.swapProgramme
  split
  · rfl
  · simp [programmeView, hv]
  · simp [programmeView, hasMember_erase, h, State.leaveMuted, hv]
  · split
    · rfl
    · simp only; split <;> simp [programmeView, hv]

theorem swapProgrammes_item (p : ProgId) : programmeView (forProgs (State.swapProgramme old) s) p =
    (swappedLoud old.programmes[p] (s.record p) s.loud[p], swappedGain old.programmes[p] (s.record p) s.gain[p],
      fun r => hasMember s.alarm.rules[r].muted p && !leaves old.programmes[p] (s.record p)) := by
  obtain ⟨t, ⟨ht, -⟩, hview, hitem⟩ := forProgs_item (view := programmeView) (f := State.swapProgramme old)
    (P := SwappedProgrammes s) (fun t _ _ h => programmeView_swapProgramme_ne old t h)
    (fun _ c ht => swapProgramme_frame old s c ht) (s := s) ⟨rfl, fun _ => rfl⟩ p
  have hrecord : t.record p = s.record p := by rw [ht]; rfl
  simp only [programmeView, Prod.mk.injEq, Fin.getElem_fin] at hview
  obtain ⟨hloud, hgain, hmuted⟩ := hview
  rw [hitem]
  unfold State.swapProgramme swappedLoud swappedGain leaves
  rw [hrecord]
  cases old.programmes[p] with
  | none => cases s.record p <;> simp [programmeView, hloud, hgain, hmuted]
  | some o =>
    cases s.record p with
    | none => simp [programmeView, hasMember_erase, State.leaveMuted]
    | some n =>
      by_cases heq : o = n
      · simp [programmeView, hloud, hgain, hmuted, heq]
      · cases hm : sameMembers o.members n.members <;> simp [programmeView, hloud, hgain, hmuted, heq, hm]

end

/-! ### The line's answer (R58, R75) -/

/-- The line of a channel after the answers; `t` is the state in which the channels' sources have been answered. -/
def swappedLine (old : Routing) (before : Vector (Option Source) 32) (t : State) (c : ChannelId) (l : Line) : Line :=
  if old.regions[c] ≠ t.active.regions[c] then assignLine l (t.lineTarget c)
  else if before[c] != t.selectedOf c || programmeOf old c != programmeOf t.active c ||
      (dtOf old c != dtOf t.active c && movesByCut t.active c) then
    cutClass l (t.lineTarget c) (before[c] != t.selectedOf c)
  else if dtOf old c != dtOf t.active c then slewClass l (t.lineTarget c)
  else l

theorem swapLine_eq (old : Routing) (before : Vector (Option Source) 32) (s : State) (c : ChannelId) :
    s.swapLine old before c = s.setLine c (swappedLine old before s c s.lines[c]) := by
  unfold State.swapLine swappedLine
  simp only
  split
  · rfl
  · split
    · rfl
    · split
      · rfl
      · simp [State.setLine]

/-- What the line's answer reads but for the line itself: the tables, the sources and the converters. -/
theorem swappedLine_congr (old : Routing) (before : Vector (Option Source) 32) {s t : State} (hT : t.tables = s.tables)
    (hS : t.sources = s.sources) (hC : t.cv = s.cv) (c : ChannelId) (l : Line) :
    swappedLine old before t c l = swappedLine old before s c l := by
  unfold swappedLine
  rw [lineTarget_eq hT hS hC c, show t.active = s.active by rw [State.active, hT]; rfl,
    show t.selectedOf c = s.selectedOf c by simp only [State.selectedOf, State.active, hT, hS]]

theorem swapLines_frame (old : Routing) (before : Vector (Option Source) 32) (s : State) :
    forChannels (State.swapLine old before) s =
      { s with lines := (forChannels (State.swapLine old before) s).lines } :=
  forChannels_keeps (P := fun t => t = { s with lines := t.lines })
    (fun t c ht => by rw [swapLine_eq, State.setLine, ht]) rfl

theorem swapLines_item (old : Routing) (before : Vector (Option Source) 32) (s : State) (c : ChannelId) :
    (forChannels (State.swapLine old before) s).lines[c] = swappedLine old before s c s.lines[c] := by
  obtain ⟨t, ht, hview, hitem⟩ := forChannels_item (view := fun (t : State) (c : ChannelId) => t.lines[c])
    (f := State.swapLine old before) (P := fun t => t = { s with lines := t.lines })
    (fun t c d h => by
      have hv : c.val ≠ d.val := fun e => h (Fin.ext e.symm)
      rw [swapLine_eq]
      simp [hv])
    (fun t c ht => by rw [swapLine_eq, State.setLine, ht]) (s := s) rfl c
  have hline : t.lines[c] = s.lines[c] := hview
  rw [hitem, swapLine_eq, State.setLine_get_self,
    swappedLine_congr (s := s) (t := t) old before (by rw [ht]) (by rw [ht]) (by rw [ht]), hline]

/-! ### The swap -/

/-- The selected sources as a swap finds them. -/
def State.selections (s : State) : Vector (Option Source) 32 := Vector.ofFn fun c => s.selectedOf c

/-- The state of a swap whose sources and programmes have been answered. -/
def State.swapAnswered (s : State) : State :=
  forProgs (State.swapProgramme s.active) (forChannels (State.swapSource s.active) (s.setTables (swapTables s.tables)))

theorem swap_eq (s : State) : s.swap = forChannels (State.swapLine s.active s.selections) s.swapAnswered := by
  unfold State.swap State.swapAnswered State.selections
  rfl

section
variable (s : State)

theorem swap_tables : s.swap.tables = swapTables s.tables := by rw [swap_frame]

theorem swap_active : s.swap.active = standbyBank s.tables := by
  rw [State.active, swap_tables, activeBank_swapTables]

theorem swap_record (p : ProgId) : s.swap.record p = (standbyBank s.tables).programmes[p] := by
  rw [State.record, swap_active]

theorem swapAnswered_tables : s.swapAnswered.tables = swapTables s.tables := by
  unfold State.swapAnswered
  rw [(swapProgrammes_frame _ _).1, (swapSources_frame _ _).1]
  rfl

theorem swap_cv : s.swap.cv = s.cv := by rw [swap_frame]

theorem swapAnswered_cv : s.swapAnswered.cv = s.cv := by
  unfold State.swapAnswered
  rw [(swapProgrammes_frame _ _).1, (swapSources_frame _ _).1]
  rfl

/-- The swap changes the rules in their two sets alone (R28, R147). -/
theorem swap_rule (r : RuleId) : s.swap.alarm.rules[r] =
    { s.alarm.rules[r] with muted := s.swap.alarm.rules[r].muted, switched := s.swap.alarm.rules[r].switched } := by
  have hlines : s.swap.alarm = s.swapAnswered.alarm := by rw [swap_eq, swapLines_frame]
  rw [hlines]
  unfold State.swapAnswered
  rw [(swapProgrammes_frame s.active _).2 r]
  have hsources := (swapSources_frame s.active (s.setTables (swapTables s.tables))).2 r
  generalize forChannels (State.swapSource s.active) (s.setTables (swapTables s.tables)) = t at hsources ⊢
  generalize (forProgs (State.swapProgramme s.active) t).alarm.rules[r].muted = m
  rw [hsources]
  rfl

theorem swap_due : s.swap.alarm.due = s.alarm.due := by
  rw [swap_eq, swapLines_frame]
  unfold State.swapAnswered
  rw [(swapProgrammes_frame _ _).1, (swapSources_frame _ _).1]
  rfl

theorem swap_sourceView (c : ChannelId) : sourceView s.swap c =
    if s.active.slotMap[c] = s.swap.active.slotMap[c] then sourceView s c
    else (.primary, s.swap.active.slotMap[c].primary, fun _ => false) := by
  have hitem := swapSources_item s.active (s.setTables (swapTables s.tables)) c
  have hactive : (s.setTables (swapTables s.tables)).active = s.swap.active := by
    rw [swap_active, State.active, State.setTables_tables, activeBank_swapTables]
  have hprog := swapProgrammes_frame s.active (forChannels (State.swapSource s.active) (s.setTables (swapTables s.tables)))
  rw [hactive] at hitem
  have hview : sourceView s.swap c =
      sourceView (forChannels (State.swapSource s.active) (s.setTables (swapTables s.tables))) c := by
    rw [swap_eq, swapLines_frame]
    unfold State.swapAnswered
    generalize forChannels (State.swapSource s.active) (s.setTables (swapTables s.tables)) = t at hprog ⊢
    obtain ⟨hframe, hrules⟩ := hprog
    generalize forProgs (State.swapProgramme s.active) t = u at hframe hrules ⊢
    have hswitched (r : RuleId) : u.alarm.rules[r].switched = t.alarm.rules[r].switched := by rw [hrules r]
    simp only [sourceView, hswitched]
    rw [hframe]
  rw [hview, hitem]
  rfl

/-- A channel whose entry changes goes to PRIMARY (R28). -/
theorem swap_sources (c : ChannelId) : s.swap.sources[c] =
    if s.active.slotMap[c] = s.swap.active.slotMap[c] then s.sources[c] else .primary := by
  have h := congrArg Prod.fst (swap_sourceView s c)
  rw [apply_ite Prod.fst] at h
  exact h

theorem swap_selected (c : ChannelId) : s.swap.frame.selected[c] =
    if s.active.slotMap[c] = s.swap.active.slotMap[c] then s.frame.selected[c] else s.swap.active.slotMap[c].primary := by
  have h := congrArg (fun v => v.2.1) (swap_sourceView s c)
  rw [apply_ite (fun v : SourceState × Option Source × (RuleId → Bool) => v.2.1)] at h
  exact h

/-- A channel whose entry changes leaves every switched set (R28). -/
theorem swap_switched (r : RuleId) (c : ChannelId) : hasMember s.swap.alarm.rules[r].switched c =
    (hasMember s.alarm.rules[r].switched c && decide (s.active.slotMap[c] = s.swap.active.slotMap[c])) := by
  have h := congrFun (congrArg (fun v => v.2.2) (swap_sourceView s c)) r
  rw [show hasMember s.swap.alarm.rules[r].switched c = _ from h]
  split
  · next heq => simp [sourceView, heq]
  · next hne => rw [decide_eq_false hne, Bool.and_false]

theorem swap_programmeView (p : ProgId) : programmeView s.swap p =
    (swappedLoud (s.record p) (s.swap.record p) s.loud[p], swappedGain (s.record p) (s.swap.record p) s.gain[p],
      fun r => hasMember s.alarm.rules[r].muted p && !leaves (s.record p) (s.swap.record p)) := by
  have hview : programmeView s.swap p = programmeView s.swapAnswered p := by rw [swap_eq, swapLines_frame]; rfl
  obtain ⟨hframe, hrules⟩ := swapSources_frame s.active (s.setTables (swapTables s.tables))
  have hitem := swapProgrammes_item s.active (forChannels (State.swapSource s.active) (s.setTables (swapTables s.tables))) p
  rw [hview]
  unfold State.swapAnswered
  rw [hitem]
  have hrecord : (forChannels (State.swapSource s.active) (s.setTables (swapTables s.tables))).record p = s.swap.record p := by
    rw [hframe, swap_record]
    exact congrArg (fun b : Routing => b.programmes[p]) (activeBank_swapTables s.tables)
  rw [hrecord]
  generalize forChannels (State.swapSource s.active) (s.setTables (swapTables s.tables)) = t at hframe hrules ⊢
  have hmuted (r : RuleId) : t.alarm.rules[r].muted = s.alarm.rules[r].muted := by rw [hrules r]; rfl
  simp only [hmuted]
  rw [hframe]
  rfl

theorem swap_loud (p : ProgId) : s.swap.loud[p] = swappedLoud (s.record p) (s.swap.record p) s.loud[p] :=
  congrArg Prod.fst (swap_programmeView s p)

theorem swap_gain (p : ProgId) : s.swap.gain[p] = swappedGain (s.record p) (s.swap.record p) s.gain[p] :=
  congrArg (fun v => v.2.1) (swap_programmeView s p)

/-- A programme that becomes absent leaves every muted set (R147). -/
theorem swap_muted (r : RuleId) (p : ProgId) : hasMember s.swap.alarm.rules[r].muted p =
    (hasMember s.alarm.rules[r].muted p && !leaves (s.record p) (s.swap.record p)) :=
  congrFun (congrArg (fun v => v.2.2) (swap_programmeView s p)) r

theorem swap_sourceVector : s.swap.sources = s.swapAnswered.sources := by rw [swap_eq, swapLines_frame]

/-- The answer of every line, read in the state that the swap leaves (R58, R75). -/
theorem swap_line (c : ChannelId) : s.swap.lines[c] = swappedLine s.active s.selections s.swap c s.lines[c] := by
  have hlines : s.swapAnswered.lines = s.lines := by
    unfold State.swapAnswered
    rw [(swapProgrammes_frame _ _).1, (swapSources_frame _ _).1]
    rfl
  have hitem := swapLines_item s.active s.selections s.swapAnswered c
  rw [← swap_eq, hlines] at hitem
  rw [hitem]
  exact (swappedLine_congr _ _ (by rw [swap_tables, swapAnswered_tables]) (swap_sourceVector s)
    (by rw [swap_cv, swapAnswered_cv]) c _).symm

end

end Sys2Proof.Machine
end

section
/-! PROOF. What every step keeps of the queues, the gain targets, the lines and the banks: properties that read neither the source
states nor the alarm engine. -/

namespace Sys2Proof.Machine

/-- The gain state `x` of a programme with record `r` keeps the capacity of its queue and its limits. -/
def GainBoundsKept (r : ProgRecord) (g x : Gain) : Prop :=
  (g.queue.length ≤ 4 → x.queue.length ≤ 4) ∧ (InLimits r g.tgt → InLimits r x.tgt)

/-- The property reads neither source states nor alarm engine nor reason sets, and is kept by the updates of the other blocks. -/
structure PlainKept (P : State → Prop) : Prop where
  links : ∀ (s : State) (rx : Vector Receiver 4) (cv : Vector Conv 4) (free : Nat), P s →
    P { s with rx := rx, cv := cv, free := free }
  lost : ∀ s : State, P s → P (s.setTb { s.tb with lost := false })
  port : ∀ (s : State) (p : Port), (PortBounded s.port → PortBounded p) → P s → P (s.setPort p)
  frame : ∀ (s : State) (f : Frame), f.boundaryDue = s.frame.boundaryDue → P s → P (s.setFrame f)
  tables : ∀ (s : State) (t : Tables), TablesKept s t → P s → P (s.setTables t)
  line : ∀ (s : State) (c : ChannelId) (x : Line), LineKept (regionLength (s.regionOf c) - 1) s.lines[c] x → P s →
    P (s.setLine c x)
  source : ∀ (s : State) (c : ChannelId) (x : SourceState), P s → P (s.setSource c x)
  alarm : ∀ (s : State) (a : Alarm), P s → P (s.setAlarm a)
  gain : ∀ (s : State) (p : ProgId) (r : ProgRecord) (x : Gain), s.record p = some r → GainBoundsKept r s.gain[p] x → P s →
    P (s.setGain p x)
  loud : ∀ (s : State) (p : ProgId) (x : Loud), LoudKept s.loud[p] x → P s → P (s.setLoud p x)
  clearMeasure : ∀ s : State, P s → P s.resetMeasure
  roll : ∀ s : State, s.frame.boundaryDue = true → P s → P (s.raiseSlice.rollRecords s.tb.slice)
  window : ∀ (s : State) (p : ProgId) (r : ProgRecord), s.record p = some r → P s →
    P (s.setLoud p (boundaryLoud r (s.programmePower r.members) s.loud[p]))
  swap : ∀ s : State, s.tables.bankState = .armed → P s → P s.swap

section
variable {P : State → Prop} (k : PlainKept P)
include k

theorem PlainKept.changeSource {s : State} (c : ChannelId) (x : SourceState) (h : P s) : P (s.changeSource c x) := by
  have hset := k.source s c x h
  rcases changeSource_cases s c x with e | e <;> rw [e]
  · exact hset
  · refine k.line _ c _ (fun hcur _ => ?_) hset
    obtain ⟨htgt, -, -, hc, -⟩ := cutClass_frame (s.setSource c x).lines[c] ((s.setSource c x).lineTarget c) true
    rw [htgt, hc]
    exact ⟨hcur, targetFor_le _ _ _⟩

theorem PlainKept.reasons {s : State} (p : ProgId) (reasons : BitVec 32) (hp : s.present p = true) (h : P s) :
    P (s.setGain p { s.gain[p] with reasons := reasons }) := by
  obtain ⟨r, hr⟩ := (s.present_iff p).1 hp
  exact k.gain s p r _ hr ⟨id, id⟩ h

theorem PlainKept.addReason {s : State} (r : RuleId) (p : ProgId) (h : P s) : P (s.addReason r p) := by
  unfold State.addReason
  split
  · next hp => exact k.reasons p _ hp h
  · exact h

theorem PlainKept.dropReason {s : State} (r : RuleId) (p : ProgId) (h : P s) : P (s.dropReason r p) := by
  unfold State.dropReason
  split
  · next hp => exact k.reasons p _ hp h
  · exact h

theorem PlainKept.applyBackup {s : State} (cs : List ChannelId) (h : P s) : P (s.applyBackup cs).1 := by
  refine foldl_keeps (P := fun a : State × BitVec 32 => P a.1) (fun a c ha => ?_) cs (s, 0#32) h
  split
  · exact k.changeSource c .backup ha
  · exact ha

theorem PlainKept.releaseChannel {s : State} (c : ChannelId) (h : P s) : P (s.releaseChannel c) := by
  unfold State.releaseChannel
  split
  · split
    · split <;> exact k.changeSource c _ h
    · exact k.changeSource c _ h
  · exact h

theorem PlainKept.applyAction {s : State} (r : RuleId) (x : RuleRecord) (h : P s) : P (s.applyAction r x) := by
  unfold State.applyAction
  split
  · exact k.alarm s _ h
  · exact k.alarm _ _ (foldl_keeps (fun _ p ht => k.addReason r p ht) _ s h)
  · exact k.alarm _ _ (k.applyBackup _ h)

theorem PlainKept.releaseAction {s : State} (r : RuleId) (h : P s) : P (s.releaseAction r) := by
  unfold State.releaseAction
  simp only
  refine forChannels_keeps (fun t c ht => ?_) (k.alarm _ _ (forProgs_keeps (fun t p ht => ?_) h))
  · split
    · exact k.releaseChannel c ht
    · exact ht
  · split
    · exact k.dropReason r p ht
    · exact ht

theorem PlainKept.toBlocks : KeptByBlocks P where
  links := k.links
  lost := k.lost
  port := k.port
  frame := k.frame
  tables := k.tables
  line := k.line
  toPrimary s c _ h := k.source s c _ h
  restore s c h := k.alarm _ _ (k.source s c _ h)
  emptySwitched s h := k.alarm s _ h
  gain s p r x hr hx h := k.gain s p r x hr hx.2 h
  loud := k.loud
  due s _ _ h := k.alarm s _ h
  rule s _ _ _ h := k.alarm s _ h
  raise s d ds _ h := by
    have hs : P s := k.alarm (s.setDue (d :: ds)) s.alarm h
    exact k.alarm _ _ (k.applyAction d.rule _ (k.alarm s _ hs))
  hold s d ds h := k.alarm (s.setDue (d :: ds)) _ h
  release s r ds h := by
    have hs : P s := k.alarm (s.setDue ds) s.alarm h
    exact k.alarm _ _ (k.releaseAction r hs)
  evaluate s h := by rw [evaluateRules_frame]; exact k.alarm s _ h
  clearMeasure := k.clearMeasure
  roll := k.roll
  window := k.window
  swap := k.swap

end

/-- The audio of a frame leaves the gain states, the records and the port. -/
theorem formAudio_gain (s : State) : s.formAudio.gain = s.gain := by rw [formAudio_frame]
theorem formAudio_port (s : State) : s.formAudio.port = s.port := by rw [formAudio_frame]
theorem formAudio_tables (s : State) : s.formAudio.tables = s.tables := by rw [formAudio_frame]

/-! ### The queues (R102, R137, R156, R157, R159) -/

/-- A write of one programme's gain state keeps what holds of every gain state. -/
theorem setGain_forall {s : State} {p : ProgId} {x : Gain} {Q : ProgId → Gain → Prop} (hx : Q p s.gain[p] → Q p x)
    (h : ∀ q : ProgId, Q q s.gain[q]) (q : ProgId) : Q q (s.setGain p x).gain[q] := by
  by_cases hq : q = p
  · subst hq; rw [State.setGain_get_self]; exact hx (h q)
  · rw [State.setGain_get_ne _ _ _ _ hq]; exact h q

/-- All queues are within their capacities. -/
def AllQueuesBounded (s : State) : Prop := PortBounded s.port ∧ Safety.GainQueuesBounded s

theorem swappedGain_queue (old new : Option ProgRecord) {g : Gain} (h : g.queue.length ≤ 4) :
    (swappedGain old new g).queue.length ≤ 4 := by
  unfold swappedGain
  split
  · split
    · exact h
    · unfold swapGain emptyQueue
      simp only
      split
      · exact h
      · exact Nat.zero_le _
  · exact h
  · exact Nat.zero_le _
  · exact Nat.zero_le _

theorem queues_plain : PlainKept AllQueuesBounded where
  links _ _ _ _ h := h
  lost _ h := h
  port _ _ hp h := ⟨hp h.1, h.2⟩
  frame _ _ _ h := h
  tables _ _ _ h := h
  line _ _ _ _ h := h
  source _ _ _ h := h
  alarm _ _ h := h
  gain _ _ _ _ _ hx h := ⟨h.1, setGain_forall (Q := fun _ g => g.queue.length ≤ 4) hx.1 h.2⟩
  loud _ _ _ _ h := h
  clearMeasure _ h := h
  roll s _ h := by rw [rollRecords_frame]; exact h
  window _ _ _ _ h := h
  swap s _ h := by
    refine ⟨by rw [swap_frame]; exact h.1, fun p => ?_⟩
    rw [swap_gain]
    exact swappedGain_queue _ _ (h.2 p)

theorem queues_kept : KeptBySteps AllQueuesBounded where
  toKeptByBlocks := queues_plain.toBlocks
  pending _ _ h := h
  hardwareReset _ _ _ _ _ _ := by
    refine ⟨⟨Nat.zero_le _, Nat.zero_le _, Nat.zero_le _, Nat.zero_le _⟩, fun p => ?_⟩
    simp [State.hardwareReset, resetState, freshGain]
  timebase _ _ _ _ h := h
  frameEnds s b _ h := by
    refine ⟨?_, fun p => ?_⟩
    · exact (formAudio_port s).symm ▸ h.1
    · exact (formAudio_gain s).symm ▸ h.2 p

/-- Settles O53: a queue grows only where the model has found room. -/
theorem stepKeepsQueuesBounded : Obligations.StepKeepsQueuesBounded :=
  fun _ _ hport hgain ht => queues_kept.step ⟨hport, hgain⟩ ht

/-! ### The gain targets (R106) -/

/-- A record with the same limits bounds the same gains. -/
theorem inLimits_congr {r r' : ProgRecord} (h : limits r = limits r') (x : Int) : InLimits r x ↔ InLimits r' x := by
  obtain ⟨-, hcut, hboost⟩ : r.members = r'.members ∧ r.cutMax = r'.cutMax ∧ r.boostMax = r'.boostMax := by
    simpa [limits] using h
  unfold InLimits
  rw [hcut, hboost]

theorem swappedGain_inLimits (old : Option ProgRecord) {n : ProgRecord} {g : Gain}
    (h : ∀ o, old = some o → InLimits o g.tgt) : InLimits n (swappedGain old (some n) g).tgt := by
  cases old with
  | none => simp [swappedGain, freshGain, InLimits]
  | some o =>
    unfold swappedGain
    simp only
    split
    · next heq => subst heq; exact h o rfl
    · exact clampGain_mem n _

theorem gainInLimits_plain : PlainKept Safety.GainInLimits where
  links _ _ _ _ h := h
  lost _ h := h
  port _ _ _ h := h
  frame _ _ _ h := h
  tables s t ht h p r hr := by
    have hrec := ht.records p
    rw [show (activeBank t).programmes[p] = some r from hr] at hrec
    obtain ⟨r', hr', hlim⟩ := Option.map_eq_some_iff.1 hrec.symm
    exact (inLimits_congr hlim _).1 (h p r' hr')
  line _ _ _ _ h := h
  source _ _ _ h := h
  alarm _ _ h := h
  gain s p r x hr hx h q := setGain_forall (Q := fun q g => ∀ r', s.record q = some r' → InLimits r' g.tgt)
    (fun hg r' hr' => by
      obtain rfl : r = r' := Option.some.inj (hr.symm.trans hr')
      exact hx.2 (hg r hr)) h q
  loud _ _ _ _ h := h
  clearMeasure _ h := h
  roll s _ h := by rw [rollRecords_frame]; exact h
  window _ _ _ _ h := h
  swap s _ h p n hn := by
    rw [swap_gain, hn]
    exact swappedGain_inLimits _ (h p)

theorem gainInLimits_kept : KeptBySteps Safety.GainInLimits where
  toKeptByBlocks := gainInLimits_plain.toBlocks
  pending _ _ h := h
  hardwareReset s cause rate96 addr mlk _ p r hr := by
    simp [State.hardwareReset, State.record, State.active, activeBank, resetState, resetTables, resetRouting] at hr
  timebase _ _ _ _ h := h
  frameEnds s b _ h p r hr := by
    have hrec : s.record p = some r := by rw [formAudio_frame] at hr; exact hr
    exact (formAudio_gain s).symm ▸ h p r hrec

/-- Settles O54: G_tgt is written only clamped, and as 0. -/
theorem stepKeepsGainInLimits : Obligations.StepKeepsGainInLimits :=
  fun _ _ h ht => gainInLimits_kept.step h ht

/-! ### The banks (R144) -/

/-- The bank with other records lists what it listed. -/
theorem programmes_of_limits {b b' : Routing} (h : ∀ p : ProgId, b'.programmes[p].map limits = b.programmes[p].map limits)
    {p : ProgId} {r : ProgRecord} (hr : b'.programmes[p] = some r) :
    ∃ x : ProgRecord, b.programmes[p] = some x ∧ limits x = limits r := by
  have hp := h p
  rw [hr] at hp
  exact Option.map_eq_some_iff.1 hp.symm

theorem lists_of_limits {r x : ProgRecord} (h : limits x = limits r) (c : ChannelId) : x.lists c = r.lists c := by
  have hmembers : x.members = r.members := congrArg Prod.fst h
  unfold ProgRecord.lists
  rw [hmembers]

theorem bankSound_congr {b b' : Routing} (hregions : b'.regions = b.regions)
    (hrecords : ∀ p : ProgId, b'.programmes[p].map limits = b.programmes[p].map limits) (h : Safety.BankSound b) :
    Safety.BankSound b' := by
  obtain ⟨hmember, hregion⟩ := h
  refine ⟨fun c p q r r' hr hr' hl hl' => ?_, fun c d hne => by rw [hregions]; exact hregion c d hne⟩
  obtain ⟨x, hx, hxr⟩ := programmes_of_limits hrecords hr
  obtain ⟨x', hx', hxr'⟩ := programmes_of_limits hrecords hr'
  exact hmember c p q x x' hx hx' ((lists_of_limits hxr c).trans hl) ((lists_of_limits hxr' c).trans hl')

/-- What reads the tables alone is kept by every step, when the writes of the tables and the swap keep it. -/
theorem tablesOnly_kept {Q : Tables → Prop} (htables : ∀ (s : State) (t : Tables), TablesKept s t → Q s.tables → Q t)
    (hswap : ∀ t : Tables, t.bankState = .armed → Q t → Q (swapTables t)) (hreset : Q resetTables) :
    KeptBySteps fun s => Q s.tables where
  toKeptByBlocks := PlainKept.toBlocks {
    links := fun _ _ _ _ h => h
    lost := fun _ h => h
    port := fun _ _ _ h => h
    frame := fun _ _ _ h => h
    tables := htables
    line := fun _ _ _ _ h => h
    source := fun _ _ _ h => h
    alarm := fun _ _ h => h
    gain := fun _ _ _ _ _ _ h => h
    loud := fun _ _ _ _ h => h
    clearMeasure := fun _ h => h
    roll := fun s _ h => by rw [rollRecords_frame]; exact h
    window := fun _ _ _ _ h => h
    swap := fun s harmed h => by rw [swap_tables]; exact hswap _ harmed h }
  pending _ _ h := h
  hardwareReset _ _ _ _ _ _ := hreset
  timebase _ _ _ _ h := h
  frameEnds s b _ h := by
    have htables : ((s.formAudio.setTb (beginFrame b s.formAudio.tb)).markBoundary).tables = s.tables := formAudio_tables s
    rw [htables]; exact h

theorem banksSound_kept : KeptBySteps Safety.BanksSound :=
  tablesOnly_kept (Q := fun t => Safety.BankSound (activeBank t) ∧ (t.bankState = .armed → Safety.BankSound (standbyBank t)))
    (fun _ _ ht h => ⟨bankSound_congr ht.regions ht.records h.1, ht.armed h⟩)
    (fun t harmed h => ⟨by rw [activeBank_swapTables]; exact h.2 harmed, fun e => by cases e⟩)
    ⟨⟨fun _ p _ _ _ hr => by simp [resetTables, activeBank, resetRouting] at hr,
      fun c d _ => by simp [resetTables, activeBank, resetRouting, sharePage]⟩, nofun⟩

/-- Settles O57: the swap takes only a bank that was validated, and no write reaches an active or an armed bank. -/
theorem stepKeepsBanksSound : Obligations.StepKeepsBanksSound :=
  fun _ _ h ht => banksSound_kept.step h ht

/-! ### The lines (R58, R61) -/

/-- A write of one line keeps what holds of every line. -/
theorem setLine_forall {s : State} {c : ChannelId} {x : Line} {Q : ChannelId → Line → Prop} (hx : Q c s.lines[c] → Q c x)
    (h : ∀ d : ChannelId, Q d s.lines[d]) (d : ChannelId) : Q d (s.setLine c x).lines[d] := by
  by_cases hd : d = c
  · subst hd; rw [State.setLine_get_self]; exact hx (h d)
  · rw [State.setLine_get_ne _ _ _ _ hd]; exact h d

/-- The line lies below the length of its region. -/
def LineInside (region : Option Region) (l : Line) : Prop :=
  l.cur ≤ regionLength region - 1 ∧ l.tgt ≤ regionLength region - 1

theorem swappedLine_inside (old : Routing) (before : Vector (Option Source) 32) (t : State) (c : ChannelId) {l : Line}
    (h : LineInside old.regions[c] l) : LineInside (t.regionOf c) (swappedLine old before t c l) := by
  unfold swappedLine
  split
  · exact ⟨targetFor_le _ _ _, targetFor_le _ _ _⟩
  · next hregion =>
    have hcur : l.cur ≤ regionLength (t.regionOf c) - 1 := by
      rw [State.regionOf, ← not_not.1 hregion]; exact h.1
    have htgt : l.tgt ≤ regionLength (t.regionOf c) - 1 := by
      rw [State.regionOf, ← not_not.1 hregion]; exact h.2
    split
    · obtain ⟨ht, -, -, hc, -⟩ := cutClass_frame l (t.lineTarget c) (before[c] != t.selectedOf c)
      exact ⟨by rw [hc]; exact hcur, by rw [ht]; exact targetFor_le _ _ _⟩
    · split
      · obtain ⟨ht, -, -, hc, -⟩ := slewClass_frame l (t.lineTarget c)
        exact ⟨by rw [hc]; exact hcur, by rw [ht]; exact targetFor_le _ _ _⟩
      · exact ⟨hcur, htgt⟩

theorem lines_plain : PlainKept Safety.LinesInRegions where
  links _ _ _ _ h := h
  lost _ h := h
  port _ _ _ h := h
  frame _ _ _ h := h
  tables s t ht h c := by
    have hregion : (s.setTables t).regionOf c = s.regionOf c := congrArg (fun v => v[c]) ht.regions
    rw [hregion]
    exact h c
  line s c x hx h := setLine_forall (Q := fun d l => LineInside (s.regionOf d) l) (fun hl => hx hl.1 hl.2) h
  source _ _ _ h := h
  alarm _ _ h := h
  gain _ _ _ _ _ _ h := h
  loud _ _ _ _ h := h
  clearMeasure _ h := h
  roll s _ h := by rw [rollRecords_frame]; exact h
  window _ _ _ _ h := h
  swap s _ h c := by
    rw [swap_line]
    exact swappedLine_inside _ _ _ c (h c)

/-- The access of a channel keeps the delay and the target of its line. -/
theorem accessLine_frame (region : Option Region) (l : Line) :
    (accessLine region l).cur = l.cur ∧ (accessLine region l).tgt = l.tgt := by
  unfold accessLine; split <;> exact ⟨rfl, rfl⟩

/-- What an access can change of a channel: its measurement and its line. -/
def accessView (t : State) (c : ChannelId) : Meas × Line := (t.meas[c], t.lines[c])

theorem accessChannel_frame (clips : Vector Bool 32) (s : State) (c : ChannelId) :
    s.accessChannel clips c = { s with
      meas := (s.accessChannel clips c).meas, store := (s.accessChannel clips c).store,
      lines := (s.accessChannel clips c).lines } := rfl

/-- The audio of a frame takes each channel's sample through its measurement and its line (R59, R82, R83). -/
theorem formAudio_access (s : State) (c : ChannelId) : accessView s.formAudio c =
    (countClip (s.outputClips c (s.channelLine c)) (tapMeas s.weights (s.channelSample c) s.meas[c]),
      accessLine (s.regionOf c) s.lines[c]) := by
  obtain ⟨t, ht, hview, hitem⟩ := forChannels_item (view := accessView)
    (f := State.accessChannel (Vector.ofFn fun c => s.outputClips c (s.channelLine c)))
    (P := fun t => t = { s with meas := t.meas, store := t.store, lines := t.lines })
    (fun t c d h => by
      have hv : c.val ≠ d.val := fun e => h (Fin.ext e.symm)
      simp [accessView, State.accessChannel, hv])
    (fun t c ht => by rw [accessChannel_frame, ht]) (s := s) rfl c
  obtain ⟨hmeas, hline⟩ : t.meas[c] = s.meas[c] ∧ t.lines[c] = s.lines[c] := Prod.mk.inj hview
  have hsample : t.channelSample c = s.channelSample c := by rw [ht]; rfl
  have hregion : t.regionOf c = s.regionOf c := by rw [ht]; rfl
  have hweights : t.weights = s.weights := by rw [ht]
  have hform : accessView s.formAudio c =
      accessView (forChannels (State.accessChannel (Vector.ofFn fun c => s.outputClips c (s.channelLine c))) s) c := rfl
  rw [hform, hitem]
  refine Prod.ext ?_ ?_
  · simp only [accessView, State.accessChannel, State.setLine_meas, State.setMeas_get_self]
    rw [hsample, hweights, hmeas]
    simp
  · simp only [accessView, State.accessChannel, State.setLine_get_self]
    change accessLine (t.regionOf c) t.lines[c] = _
    rw [hregion, hline]

theorem formAudio_meas (s : State) (c : ChannelId) : s.formAudio.meas[c] =
    countClip (s.outputClips c (s.channelLine c)) (tapMeas s.weights (s.channelSample c) s.meas[c]) := by
  have h := formAudio_access s c
  unfold accessView at h
  exact (Prod.mk.inj h).1

theorem formAudio_line (s : State) (c : ChannelId) : s.formAudio.lines[c] = accessLine (s.regionOf c) s.lines[c] := by
  have h := formAudio_access s c
  unfold accessView at h
  exact (Prod.mk.inj h).2

theorem lines_kept : KeptBySteps Safety.LinesInRegions where
  toKeptByBlocks := lines_plain.toBlocks
  pending _ _ h := h
  hardwareReset _ _ _ _ _ _ c := by simp [State.hardwareReset, resetState, resetLine]
  timebase _ _ _ _ h := h
  frameEnds s b _ h c := by
    obtain ⟨hcur, htgt⟩ := accessLine_frame (s.regionOf c) s.lines[c]
    have hregion : ((s.formAudio.setTb (beginFrame b s.formAudio.tb)).markBoundary).regionOf c = s.regionOf c :=
      congrArg (fun t => (activeBank t).regions[c]) (formAudio_tables s)
    have hlines : ((s.formAudio.setTb (beginFrame b s.formAudio.tb)).markBoundary).lines = s.formAudio.lines := rfl
    rw [hregion, hlines, formAudio_line, hcur, htgt]
    exact h c

/-- Settles O56: every target lies below the region's length (R61), and a delay moves only toward its target. -/
theorem stepKeepsLinesInRegions : Obligations.StepKeepsLinesInRegions :=
  fun _ _ h ht => lines_kept.step h ht

/-! ### The regions and the stores of cells (R57, R140) -/

theorem regionsFit_kept : KeptBySteps Safety.RegionsFit :=
  tablesOnly_kept (Q := TablesFit) (fun _ _ ht h => ht.fits h)
    (fun t _ h => h) (fun c r hr => by simp [resetTables, resetRouting] at hr)

theorem filtersCanonical_kept : KeptBySteps fun s => cellsWf 0 s.tables.filters = true :=
  tablesOnly_kept (Q := fun t => cellsWf 0 t.filters = true) (fun _ _ ht h => ht.filters h) (fun _ _ h => h)
    (by decide +kernel)

theorem writeLine_wf {store : Cells Sample} (region : Option Region) (l : Line) (x : Sample)
    (h : cellsWf 0#24 store = true) : cellsWf 0#24 (writeLine store region l x) = true := by
  unfold writeLine
  split
  · exact h
  · exact writeCell_wf _ _ _ h

theorem formAudio_store_wf {s : State} (h : cellsWf 0#24 s.store = true) : cellsWf 0#24 s.formAudio.store = true := by
  unfold State.formAudio
  simp only
  exact forChannels_keeps (P := fun t : State => cellsWf 0#24 t.store = true) (fun _ _ ht => writeLine_wf _ _ _ ht) h

theorem storeCanonical_kept : KeptBySteps fun s => cellsWf 0#24 s.store = true where
  toKeptByBlocks := PlainKept.toBlocks {
    links := fun _ _ _ _ h => h
    lost := fun _ h => h
    port := fun _ _ _ h => h
    frame := fun _ _ _ h => h
    tables := fun _ _ _ h => h
    line := fun _ _ _ _ h => h
    source := fun _ _ _ h => h
    alarm := fun _ _ h => h
    gain := fun _ _ _ _ _ _ h => h
    loud := fun _ _ _ _ h => h
    clearMeasure := fun _ h => h
    roll := fun s _ h => by rw [rollRecords_frame]; exact h
    window := fun _ _ _ _ h => h
    swap := fun s _ h => by rw [swap_frame]; exact h }
  pending _ _ h := h
  hardwareReset _ _ _ _ _ h := h
  timebase _ _ _ _ h := h
  frameEnds s b _ h := by
    have hstore : ((s.formAudio.setTb (beginFrame b s.formAudio.tb)).markBoundary).store = s.formAudio.store := rfl
    rw [hstore]
    exact formAudio_store_wf h

/-- Regions that fit pass the test with which a house frame begins its accesses. -/
theorem storeFits_of_regionsFit {s : State} (h : Safety.RegionsFit s) : s.storeFits = true := by
  simp only [State.storeFits, allChannels, List.all_eq_true, List.mem_finRange, true_implies]
  intro c
  split
  · next r hr => exact decide_eq_true (((tablesFit_iff _).1 h).1 c r hr)
  · rfl

theorem houseFrame_ne_fault {s : State} (h : Safety.RegionsFit s) (r : Fault) : s.houseFrame ≠ .fault r := by
  unfold State.houseFrame
  simp only
  split
  · nofun
  · have hfits : (State.settleFrame (s.setTb (settleTimebase s.tb))).storeFits = true :=
      storeFits_of_regionsFit (regionsFit_kept.settleFrame (s := s.setTb (settleTimebase s.tb)) h)
    rw [if_pos hfits]
    nofun

/-- HOUSE FRAME alone can stop with a fault (log entry 17). -/
theorem step_ne_fault {s : State} (h : Safety.RegionsFit s) (r : Fault) : step s ≠ .fault r := by
  unfold step
  split
  · nofun
  · next i rest _ =>
    have hrest : Safety.RegionsFit (s.setPending rest) := h
    cases i
    case houseFrame => exact houseFrame_ne_fault hrest r
    all_goals nofun

/-- Settles O55: the fault is met only with a region outside the store, and no write accepts one. -/
theorem stepKeepsRegionsAndStores : Obligations.StepKeepsRegionsAndStores :=
  fun _ hfit ⟨hstore, hfilters⟩ => ⟨step_ne_fault hfit, fun _ ht =>
    ⟨regionsFit_kept.step hfit ht, storeCanonical_kept.step hstore ht, filtersCanonical_kept.step hfilters ht⟩⟩

end Sys2Proof.Machine
end

section
/-! PROOF. What every step keeps of the measurement and the integrators (R82, R84, R86, R89, R92). -/

namespace Sys2Proof.Machine

/-- The measurement and the integrators are within their bounds. -/
def MeasureBounded (s : State) : Prop := Safety.MeasurementBounded s ∧ Safety.IntegratorsBounded s

/-! ### Powers -/

/-- The power of a list of members grows by at most 31 × 2^34 with each (R86). -/
theorem programmePower_foldl_le {s : State} (hms : ∀ c : ChannelId, s.meas[c].latest.ms ≤ 2 ^ 34) :
    ∀ (ms : List Member) (a : Nat), (∀ m ∈ ms, m.weight ≤ 31) →
      ms.foldl (fun a m => a + m.weight * s.meas[m.channel].latest.ms) a ≤ a + ms.length * (31 * 2 ^ 34)
  | [], a, _ => by simp
  | m :: ms, a, hw => by
    have hm : m.weight * s.meas[m.channel].latest.ms ≤ 31 * 2 ^ 34 :=
      Nat.mul_le_mul (hw m List.mem_cons_self) (hms m.channel)
    have ih := programmePower_foldl_le hms ms (a + m.weight * s.meas[m.channel].latest.ms)
      (fun x hx => hw x (List.mem_cons_of_mem m hx))
    rw [List.foldl_cons, List.length_cons, Nat.succ_mul]
    omega

theorem programmePower_le {s : State} (hms : ∀ c : ChannelId, s.meas[c].latest.ms ≤ 2 ^ 34) {ms : List Member}
    (hlen : ms.length ≤ 8) (hw : ∀ m ∈ ms, m.weight ≤ 31) : s.programmePower ms ≤ largestPower := by
  have h := programmePower_foldl_le hms ms 0 hw
  have hmax : ms.length * (31 * 2 ^ 34) ≤ 8 * (31 * 2 ^ 34) := Nat.mul_le_mul_right _ hlen
  unfold State.programmePower
  unfold largestPower
  omega

theorem pushPower_bounded {h : List Nat} {p : Nat} (hp : p ≤ largestPower) (hh : ∀ x ∈ h, x ≤ largestPower) :
    ∀ x ∈ pushPower h p, x ≤ largestPower := by
  intro x hx
  rcases List.mem_cons.1 (List.mem_of_mem_take hx) with rfl | hm
  · exact hp
  · exact hh x hm

/-- The mean of four powers is one at most (R89). -/
theorem windowPower_le {h : List Nat} {p : Nat} (hp : p ≤ largestPower) (hh : ∀ x ∈ h, x ≤ largestPower) :
    (pushPower h p).foldl (· + ·) 0 / 4 ≤ largestPower := by
  have hall := pushPower_bounded hp hh
  have hlen : (pushPower h p).length ≤ 4 := by simp [pushPower]
  have hsum : (pushPower h p).foldl (· + ·) 0 ≤ (pushPower h p).length * largestPower := by
    rw [← List.sum_eq_foldl]
    exact (List.sum_le_card_nsmul _ _ hall).trans (le_of_eq (nsmul_eq_mul _ _))
  have hmul : (pushPower h p).length * largestPower ≤ 4 * largestPower := Nat.mul_le_mul_right _ hlen
  omega

/-! ### The integrator (R92) -/

theorem admitPower_bounded {w : Nat} {l : Loud} (hw : w ≤ largestPower) (h : IntegratorBounded l) :
    IntegratorBounded (admitPower w l) := by
  obtain ⟨hcount, hsum⟩ := h
  unfold admitPower IntegratorBounded
  split
  · next hfull =>
    rw [hfull] at hsum
    simp only [Nat.reduceLeDiff, Nat.reduceLT, if_false] at hsum ⊢
    exact ⟨trivial, by omega⟩
  · refine ⟨by simp only; omega, ?_⟩
    simp only [Nat.succ_mul]
    split at hsum <;> split <;> omega

theorem boundaryLoud_history (r : ProgRecord) (p : Nat) (l : Loud) : (boundaryLoud r p l).history = pushPower l.history p := by
  unfold boundaryLoud
  simp only
  split <;> rfl

theorem boundaryLoud_bounded {r : ProgRecord} {p : Nat} {l : Loud} (hp : p ≤ largestPower) (hh : HistoryBounded l)
    (h : IntegratorBounded l) : IntegratorBounded (boundaryLoud r p l) := by
  unfold boundaryLoud
  simp only
  split
  · exact h
  · split
    · exact admitPower_bounded (windowPower_le hp hh) h
    · exact h

/-! ### Records -/

theorem stageOutput_bounds (b0 b1 b2 a1 a2 : Int) (q : Biquad) (x : Int) :
    -33554432 ≤ stageOutput b0 b1 b2 a1 a2 q x ∧ stageOutput b0 b1 b2 a1 a2 q x ≤ 33554431 := by
  unfold stageOutput saturate26 clampInt
  split
  · omega
  · split <;> omega

/-- A frame adds at most 2^34 to a building record (R82). -/
theorem tapMeas_acc_le (w : Vector Int 10) (x : Sample) (m : Meas) :
    (tapMeas w x m).building.acc ≤ m.building.acc + 2 ^ 34 := by
  have hbounds := stageOutput_bounds w[5] w[6] w[7] w[8] w[9] m.stage2 (stageOutput w[0] w[1] w[2] w[3] w[4] m.stage1 x.toInt)
  simp only [tapMeas, addSample]
  generalize stageOutput w[5] w[6] w[7] w[8] w[9] m.stage2 _ = y at hbounds ⊢
  have habs : y.natAbs ≤ 2 ^ 25 := by omega
  have hsq : y.natAbs ^ 2 ≤ 2 ^ 50 := (Nat.pow_le_pow_left habs 2).trans (by decide)
  omega

theorem countClip_acc (clipped : Bool) (m : Meas) : (countClip clipped m).building.acc = m.building.acc := by
  unfold countClip; split <;> rfl

theorem countClip_latest (clipped : Bool) (m : Meas) : (countClip clipped m).latest = m.latest := by
  unfold countClip; split <;> rfl

theorem sliceLength_pos (rate96 : Bool) : 0 < sliceLength rate96 := by cases rate96 <;> decide

theorem rollRecords_meas (s : State) (n : BitVec 32) (c : ChannelId) :
    (s.rollRecords n).meas[c] = rollMeas s.tb.nSlice n s.meas[c] := by
  obtain ⟨t, ht, hview, hitem⟩ := forChannels_item (view := fun (t : State) (c : ChannelId) => t.meas[c])
    (f := fun s c => s.setMeas c (rollMeas s.tb.nSlice n s.meas[c])) (P := fun t => t = { s with meas := t.meas })
    (fun t c d h => State.setMeas_get_ne _ _ _ _ h) (fun t c ht => by rw [State.setMeas, ht]) (s := s) rfl c
  have htb : t.tb = s.tb := by rw [ht]
  have hmeas : t.meas[c] = s.meas[c] := hview
  unfold State.rollRecords
  rw [hitem, State.setMeas_get_self, htb, hmeas]

/-! ### Loudness states, one by one -/

/-- A write of one programme's loudness state keeps what holds of every one. -/
theorem setLoud_forall {s : State} {p : ProgId} {x : Loud} {Q : Loud → Prop} (hx : Q s.loud[p] → Q x)
    (h : ∀ q : ProgId, Q s.loud[q]) (q : ProgId) : Q (s.setLoud p x).loud[q] := by
  by_cases hq : q = p
  · subst hq; rw [State.setLoud_get_self]; exact hx (h q)
  · rw [State.setLoud_get_ne _ _ _ _ hq]; exact h q

theorem cleared_bounded : HistoryBounded clearedLoud ∧ IntegratorBounded clearedLoud :=
  ⟨fun _ hx => by simp [clearedLoud] at hx, by simp [IntegratorBounded, clearedLoud]⟩

theorem swappedLoud_cases (old new : Option ProgRecord) (l : Loud) :
    swappedLoud old new l = l ∨ swappedLoud old new l = clearedLoud := by
  unfold swappedLoud
  split
  · split
    · exact .inl rfl
    · exact .inr rfl
  · exact .inl rfl
  · exact .inr rfl

/-- The parts of the invariant, with the histories as `HistoryBounded` says them. -/
theorem measureBounded_iff (s : State) : MeasureBounded s ↔
    s.tb.phase < sliceLength s.tb.rate96 ∧
    (∀ c : ChannelId, s.meas[c].building.acc ≤ (if s.frame.boundaryDue then sliceLength s.tb.rate96 else s.tb.phase) * 2 ^ 34 ∧
      s.meas[c].latest.ms ≤ 2 ^ 34) ∧
    (Safety.MembersInRange s.tables.bank0 ∧ Safety.MembersInRange s.tables.bank1) ∧
    ∀ p : ProgId, HistoryBounded s.loud[p] ∧ IntegratorBounded s.loud[p] := by
  constructor
  · rintro ⟨⟨hphase, hmeas, hhist, hmembers⟩, hint⟩
    exact ⟨hphase, hmeas, hmembers, fun p => ⟨hhist p, hint p⟩⟩
  · rintro ⟨hphase, hmeas, hmembers, hloud⟩
    exact ⟨⟨hphase, hmeas, fun p => (hloud p).1, hmembers⟩, fun p => (hloud p).2⟩

/-- A boundary leaves empty building records and mean squares of at most 2^34 (R84). -/
theorem measureBounded_roll {s : State} (hdue : s.frame.boundaryDue = true) (h : MeasureBounded s) :
    MeasureBounded (s.raiseSlice.rollRecords s.tb.slice) := by
  obtain ⟨hphase, hmeas, hmembers, hloud⟩ := (measureBounded_iff s).1 h
  refine (measureBounded_iff _).2 ⟨?_, fun c => ?_, ?_, fun p => ?_⟩
  · rw [rollRecords_frame]; exact hphase
  · rw [rollRecords_meas]
    obtain ⟨hacc, -⟩ := hmeas c
    rw [hdue, if_pos rfl] at hacc
    exact ⟨Nat.zero_le _, Nat.div_le_of_le_mul hacc⟩
  · rw [rollRecords_frame]; exact hmembers
  · rw [rollRecords_frame]; exact hloud p

theorem measure_plain : PlainKept MeasureBounded where
  links _ _ _ _ h := h
  lost _ h := h
  port _ _ _ h := h
  frame s f hf h := by
    rw [measureBounded_iff] at h ⊢
    simp only [State.setFrame_frame, hf]
    exact h
  tables s t ht h := by
    obtain ⟨hphase, hmeas, hmembers, hloud⟩ := (measureBounded_iff s).1 h
    exact (measureBounded_iff _).2 ⟨hphase, hmeas, ht.members hmembers, hloud⟩
  line _ _ _ _ h := h
  source _ _ _ h := h
  alarm _ _ h := h
  gain _ _ _ _ _ _ h := h
  loud s p x hx h := by
    obtain ⟨hphase, hmeas, hmembers, hloud⟩ := (measureBounded_iff s).1 h
    exact (measureBounded_iff _).2 ⟨hphase, hmeas, hmembers,
      setLoud_forall (Q := fun l => HistoryBounded l ∧ IntegratorBounded l) (fun hl => ⟨hx.1 hl.1, hx.2 hl.2⟩) hloud⟩
  clearMeasure s h := by
    obtain ⟨hphase, -, hmembers, -⟩ := (measureBounded_iff s).1 h
    refine (measureBounded_iff _).2 ⟨hphase, fun c => ?_, hmembers, fun p => ?_⟩
    · simp [State.resetMeasure, resetMeas, zeroBuilding]
    · simp only [State.resetMeasure, Fin.getElem_fin, Vector.getElem_replicate]
      exact cleared_bounded
  roll s hdue h := measureBounded_roll hdue h
  window s p r hr h := by
    obtain ⟨hphase, hmeas, hmembers, hloud⟩ := (measureBounded_iff s).1 h
    obtain ⟨hlen, hw⟩ := ((banks_iff Safety.MembersInRange s.tables).1 hmembers).1 p r hr
    have hpower := programmePower_le (fun c => (hmeas c).2) hlen hw
    refine (measureBounded_iff _).2 ⟨hphase, hmeas, hmembers,
      setLoud_forall (Q := fun l => HistoryBounded l ∧ IntegratorBounded l) (fun hl => ⟨?_, ?_⟩) hloud⟩
    · unfold HistoryBounded
      rw [boundaryLoud_history]
      exact pushPower_bounded hpower hl.1
    · exact boundaryLoud_bounded hpower hl.1 hl.2
  swap s _ h := by
    obtain ⟨hphase, hmeas, hmembers, hloud⟩ := (measureBounded_iff s).1 h
    refine (measureBounded_iff _).2 ⟨?_, ?_, ?_, fun p => ?_⟩
    · rw [swap_frame]; exact hphase
    · rw [swap_boundaryDue, swap_frame]; exact hmeas
    · rw [swap_tables]; exact hmembers
    · rw [swap_loud]
      rcases swappedLoud_cases (s.record p) (s.swap.record p) s.loud[p] with e | e <;> rw [e]
      · exact hloud p
      · exact cleared_bounded

/-- A frame begins with what its records may hold (R3, R82). -/
theorem frame_allowance {t : Timebase} (hphase : t.phase < sliceLength t.rate96) :
    nextPhase t < sliceLength t.rate96 ∧
    t.phase + 1 ≤ (if nextPhase t == 0 then sliceLength t.rate96 else nextPhase t) := by
  have hpos := sliceLength_pos t.rate96
  unfold nextPhase Timebase.nSlice
  split
  · exact ⟨by omega, by simp⟩
  · exact ⟨hpos, by simp; omega⟩

theorem measure_kept : KeptBySteps MeasureBounded where
  toKeptByBlocks := measure_plain.toBlocks
  pending _ _ h := h
  hardwareReset s cause rate96 addr mlk _ := by
    refine (measureBounded_iff _).2 ⟨sliceLength_pos rate96, fun c => ?_, ⟨fun p r hr => ?_, fun p r hr => ?_⟩, fun p => ?_⟩
    · simp [State.hardwareReset, resetState, resetMeas, zeroBuilding]
    · simp [State.hardwareReset, resetState, resetTables, resetRouting] at hr
    · simp [State.hardwareReset, resetState, resetTables, resetRouting] at hr
    · simp only [State.hardwareReset, resetState, Fin.getElem_fin, Vector.getElem_replicate]
      exact cleared_bounded
  timebase s x hphase hrate h := by
    rw [measureBounded_iff] at h ⊢
    simp only [State.setTb_tb, hphase, hrate]
    exact h
  frameEnds s b hdone h := by
    obtain ⟨hphase, hmeas, hmembers, hloud⟩ := (measureBounded_iff s).1 h
    obtain ⟨hnext, hallow⟩ := frame_allowance hphase
    have htb : s.formAudio.tb = s.tb := by rw [formAudio_frame]
    refine (measureBounded_iff _).2 ⟨?_, fun c => ?_, ?_, fun p => ?_⟩
    · simp only [State.markBoundary, State.setFrame_tb, State.setTb_tb, htb, beginFrame]
      exact hnext
    · simp only [State.markBoundary, State.setFrame_tb, State.setTb_tb, htb, beginFrame, State.setFrame_frame,
        State.setFrame_meas, State.setTb_meas, formAudio_meas, countClip_acc, countClip_latest]
      obtain ⟨hacc, hms⟩ := hmeas c
      rw [hdone, if_neg Bool.false_ne_true] at hacc
      refine ⟨(tapMeas_acc_le _ _ _).trans ?_, hms⟩
      calc s.meas[c].building.acc + 2 ^ 34 ≤ (s.tb.phase + 1) * 2 ^ 34 := by omega
        _ ≤ _ := Nat.mul_le_mul_right _ hallow
    · exact (formAudio_tables s).symm ▸ hmembers
    · have hl : s.formAudio.loud = s.loud := by rw [formAudio_frame]
      exact hl.symm ▸ hloud p

/-- The bound of the integrator as 58 bits hold it (R92, R96). -/
theorem integrator_fits {l : Loud} (h : IntegratorBounded l) : l.sum ≤ l.count * 2 ^ 42 ∧ l.sum < 2 ^ 58 := by
  obtain ⟨hcount, hsum⟩ := h
  unfold largestPower at hsum
  split at hsum <;> omega

/-- Settles O60: a record grows by at most 2^34 in a frame, a power is at most 8 × 31 × 2^34, and S takes one power with each count. -/
theorem stepKeepsIntegratorsBounded : Obligations.StepKeepsIntegratorsBounded :=
  ⟨fun _ _ hmeas hint ht => measure_kept.step ⟨hmeas, hint⟩ ht, fun _ p h => integrator_fits (h p)⟩

end Sys2Proof.Machine
end

section
/-! PROOF. The alarm engine, rule by rule: what an evaluation leaves of a rule and leaves due, what an action switches and mutes,
and what every step keeps of the switched sets, the muted sets and the reason sets (R131, R134). -/

namespace Sys2Proof.Machine

/-! ### The evaluation of a rule (R126 to R128) -/

/-- An enabled rule whose condition holds or not, after the evaluation. -/
def evaluatedRule (e : RuleRecord) (holds : Bool) (x : Rule) : Rule :=
  match holds, x.state with
  | true, .quiet => if e.raiseTime = 0 then x else { x with state := .onset, timer := e.raiseTime }
  | true, .onset => { x with timer := x.timer - 1 }
  | true, .active => x
  | true, .easing => { x with state := .active, timer := 0 }
  | true, .held => { x with state := .active, timer := 0, ack := false }
  | false, .quiet => x
  | false, .onset => { x with state := .quiet, timer := 0 }
  | false, .active => if e.clearTime = 0 then x else { x with state := .easing, timer := e.clearTime }
  | false, .easing => { x with timer := x.timer - 1 }
  | false, .held => x

/-- What the evaluation leaves due of an enabled rule. -/
def evaluatedDue (e : RuleRecord) (holds : Bool) (x : Rule) : Option DueKind :=
  match holds, x.state with
  | true, .quiet => if e.raiseTime = 0 then some .raising else none
  | true, .onset => if x.timer ≤ 1 then some .raising else none
  | true, .held => some .returning
  | false, .active => if e.clearTime = 0 then some .timerOut else none
  | false, .easing => if x.timer ≤ 1 then some .timerOut else none
  | _, _ => none

/-- The rule of the state after its evaluation. -/
def State.ruleAfter (s : State) (r : RuleId) : Rule :=
  let e := s.tables.ruleRecords[r]
  if e.enabled then evaluatedRule e (s.conditionHolds e) s.alarm.rules[r] else s.alarm.rules[r]

/-- What the evaluation of the rule of the state leaves due. -/
def State.dueAfter (s : State) (r : RuleId) : Option DueRule :=
  let e := s.tables.ruleRecords[r]
  if e.enabled then
    (evaluatedDue e (s.conditionHolds e) s.alarm.rules[r]).map fun k => { rule := r, kind := k, value := s.noticeValue e }
  else none

theorem State.setRule_unchanged (s : State) (r : RuleId) : s.setRule r s.alarm.rules[r] = s := by
  simp [State.setRule]

theorem evaluateRule_eq (s : State) (r : RuleId) : s.evaluateRule r =
    (s.setRule r (s.ruleAfter r)).setDue (s.alarm.due ++ (s.dueAfter r).toList) := by
  have hstands : (s.setRule r s.alarm.rules[r]).setDue (s.alarm.due ++ []) = s := by
    rw [State.setRule_unchanged, List.append_nil]; rfl
  unfold State.evaluateRule State.ruleAfter State.dueAfter
  simp only
  split
  · next hoff => simp only [Bool.not_eq_true'] at hoff; rw [hoff]; exact hstands.symm
  · next hon =>
    simp only [Bool.not_eq_true', Bool.not_eq_false] at hon
    rw [if_pos hon, if_pos hon]
    split
    · next hc =>
      rw [hc]
      split <;> rename_i hst <;> simp only [evaluatedRule, evaluatedDue, hst]
      · split
        · exact congrArg (State.setDue · _) (State.setRule_unchanged s r).symm
        · simp [State.putRule, State.setDue, State.setRule, State.setAlarm]
      · split
        · next hle =>
          have htimer : s.alarm.rules[r].timer - 1 = 0 := by omega
          rw [htimer, ← hst]; rfl
        · rw [← hst]; simp [State.putRule, State.setDue, State.setRule, State.setAlarm]
      · exact hstands.symm
      · simp [State.putRule, State.setDue, State.setRule, State.setAlarm]
      · rfl
    · next hc =>
      rw [Bool.eq_false_iff.2 hc]
      split <;> rename_i hst <;> simp only [evaluatedRule, evaluatedDue, hst]
      · exact hstands.symm
      · simp [State.putRule, State.setDue, State.setRule, State.setAlarm]
      · split
        · exact congrArg (State.setDue · _) (State.setRule_unchanged s r).symm
        · simp [State.putRule, State.setDue, State.setRule, State.setAlarm]
      · split
        · next hle =>
          have htimer : s.alarm.rules[r].timer - 1 = 0 := by omega
          rw [htimer, ← hst]; rfl
        · rw [← hst]; simp [State.putRule, State.setDue, State.setRule, State.setAlarm]
      · exact hstands.symm

/-- What an evaluation reads of a rule is its own state and what the alarm engine does not hold. -/
theorem ruleAfter_congr {s t : State} (ht : t = { s with alarm := t.alarm }) {r : RuleId}
    (hr : t.alarm.rules[r] = s.alarm.rules[r]) : t.ruleAfter r = s.ruleAfter r ∧ t.dueAfter r = s.dueAfter r := by
  have htables : t.tables = s.tables := by rw [ht]
  have hholds (e : RuleRecord) : t.conditionHolds e = s.conditionHolds e := by rw [ht]; rfl
  have hvalue (e : RuleRecord) : t.noticeValue e = s.noticeValue e := by rw [ht]; rfl
  unfold State.ruleAfter State.dueAfter
  simp only [htables, hholds, hvalue, hr, and_self]

theorem evaluateRule_foldl {s : State} : ∀ (rs : List RuleId) {t : State}, rs.Nodup → t = { s with alarm := t.alarm } →
    (∀ r ∈ rs, t.alarm.rules[r] = s.alarm.rules[r]) →
    (rs.foldl State.evaluateRule t).alarm.due = t.alarm.due ++ rs.filterMap s.dueAfter ∧
    ∀ q : RuleId, (rs.foldl State.evaluateRule t).alarm.rules[q] =
      if q ∈ rs then s.ruleAfter q else t.alarm.rules[q]
  | [], t, _, _, _ => by simp
  | r :: rs, t, hnodup, ht, hsame => by
    obtain ⟨hnot, hnodup⟩ := List.nodup_cons.1 hnodup
    obtain ⟨hafter, hdue⟩ := ruleAfter_congr ht (hsame r List.mem_cons_self)
    have hkept (q : RuleId) (hq : q ≠ r) : (t.evaluateRule r).alarm.rules[q] = t.alarm.rules[q] := by
      rw [evaluateRule_eq]; exact State.setRule_get_ne _ _ _ _ hq
    have hframe : t.evaluateRule r = { s with alarm := (t.evaluateRule r).alarm } := by
      rw [evaluateRule_frame, ht]
    obtain ⟨hdues, hrules⟩ := evaluateRule_foldl rs hnodup hframe (fun q hq => by
      have hne : q ≠ r := fun e => hnot (e ▸ hq)
      rw [hkept q hne]; exact hsame q (List.mem_cons_of_mem r hq))
    refine ⟨?_, fun q => ?_⟩
    · rw [List.foldl_cons, hdues, evaluateRule_eq]
      simp only [State.setDue, State.setAlarm_alarm, hdue, List.filterMap_cons, List.append_assoc]
      cases s.dueAfter r <;> rfl
    · rw [List.foldl_cons, hrules q]
      by_cases hq : q = r
      · subst hq
        rw [if_neg hnot, if_pos List.mem_cons_self, evaluateRule_eq]
        exact (State.setRule_get_self _ _ _).trans hafter
      · rw [hkept q hq]
        simp [hq]

/-- Every rule after an evaluation, and the rules that it leaves due, in ascending number (R122). -/
theorem evaluateRules_alarm (s : State) : s.evaluateRules.alarm.due = allRules.filterMap s.dueAfter ∧
    ∀ r : RuleId, s.evaluateRules.alarm.rules[r] = s.ruleAfter r := by
  obtain ⟨hdue, hrules⟩ := evaluateRule_foldl (s := s) (t := s.setDue []) allRules (List.nodup_finRange 32) rfl
    (fun _ _ => rfl)
  have heval : s.evaluateRules = allRules.foldl State.evaluateRule (s.setDue []) := rfl
  refine ⟨?_, fun r => ?_⟩
  · rw [heval, hdue]
    exact List.nil_append _
  · rw [heval]
    exact (hrules r).trans (if_pos (List.mem_finRange r))

theorem dueAfter_rule {s : State} {r : RuleId} {d : DueRule} (h : s.dueAfter r = some d) : d.rule = r := by
  unfold State.dueAfter at h
  simp only at h
  split at h
  · obtain ⟨k, -, rfl⟩ := Option.map_eq_some_iff.1 h; rfl
  · cases h

/-- The rules that an evaluation leaves due stand in ascending number (R122). -/
theorem evaluateRules_due_sorted (s : State) : s.evaluateRules.alarm.due.Pairwise fun d d' => d.rule < d'.rule := by
  rw [(evaluateRules_alarm s).1, List.pairwise_filterMap]
  refine (List.pairwise_lt_finRange 32).imp fun hlt d hd d' hd' => ?_
  rw [dueAfter_rule hd, dueAfter_rule hd']
  exact hlt

/-- An evaluation leaves a rule its two sets, and raised or not as it was (R126 to R128). -/
theorem evaluatedRule_kept (e : RuleRecord) (holds : Bool) (x : Rule) : (evaluatedRule e holds x).muted = x.muted ∧
    (evaluatedRule e holds x).switched = x.switched ∧ raised (evaluatedRule e holds x).state = raised x.state := by
  obtain ⟨state, timer, ack, muted, switched⟩ := x
  unfold evaluatedRule
  cases holds <;> cases state <;> dsimp only
  case false.active => split <;> exact ⟨rfl, rfl, rfl⟩
  case true.quiet => split <;> exact ⟨rfl, rfl, rfl⟩
  all_goals exact ⟨rfl, rfl, rfl⟩

theorem ruleAfter_kept (s : State) (r : RuleId) : (s.ruleAfter r).muted = s.alarm.rules[r].muted ∧
    (s.ruleAfter r).switched = s.alarm.rules[r].switched ∧
    raised (s.ruleAfter r).state = raised s.alarm.rules[r].state := by
  unfold State.ruleAfter
  simp only
  split
  · exact evaluatedRule_kept _ _ _
  · exact ⟨rfl, rfl, rfl⟩

/-- A rule that an evaluation leaves due to be raised is not raised already (R126, R127). -/
theorem dueAfter_raising {s : State} {r : RuleId} {d : DueRule} (h : s.dueAfter r = some d) (hk : d.kind = .raising) :
    raised s.alarm.rules[r].state = false := by
  unfold State.dueAfter at h
  simp only at h
  split at h
  · obtain ⟨k, hdue, rfl⟩ := Option.map_eq_some_iff.1 h
    obtain rfl : k = .raising := hk
    unfold evaluatedDue at hdue
    split at hdue
    · next hst => rw [hst]; rfl
    · next hst => rw [hst]; rfl
    · cases hdue
    · split at hdue <;> cases hdue
    · split at hdue <;> cases hdue
    · cases hdue
  · cases h

/-! ### A BACKUP action (R24) -/

/-- What a BACKUP action has switched of a list of channels: those that could switch, each now in BACKUP, with every line
following its source. -/
def Switching (s : State) (cs : List ChannelId) (a : State × BitVec 32) : Prop :=
  a.1 = { s with sources := a.1.sources, lines := a.1.lines } ∧
  ∀ c : ChannelId, hasMember a.2 c = (decide (c ∈ cs) && s.canSwitch c) ∧
    a.1.sources[c] = (if hasMember a.2 c then .backup else s.sources[c]) ∧ Safety.LineFollows s a.1 c

theorem canSwitch_congr {s t : State} (hA : t.active = s.active) (hC : t.cv = s.cv) {c : ChannelId}
    (hS : t.sources[c] = s.sources[c]) : t.canSwitch c = s.canSwitch c := by
  unfold State.canSwitch State.linkRuns
  rw [hA, hC, hS]

theorem lineFollows_refl (s : State) (c : ChannelId) : Safety.LineFollows s s c := ⟨fun h => absurd rfl h, fun _ => rfl⟩

/-- One more channel of a BACKUP action. -/
def switchNext (a : State × BitVec 32) (c : ChannelId) : State × BitVec 32 :=
  if a.1.canSwitch c then (a.1.changeSource c .backup, insertMember a.2 c) else a

theorem switching_next {s : State} {cs : List ChannelId} {a : State × BitVec 32} (c : ChannelId) (h : Switching s cs a) :
    Switching s (cs ++ [c]) (switchNext a c) := by
  obtain ⟨hframe, hitems⟩ := h
  obtain ⟨t, set⟩ := a
  simp only at hframe hitems
  have hA : t.active = s.active := by rw [hframe]; rfl
  have hC : t.cv = s.cv := by rw [hframe]
  have hT : t.tables = s.tables := by rw [hframe]
  obtain ⟨hset, hsource, hline⟩ := hitems c
  unfold switchNext
  cases hmem : hasMember set c with
  | true =>
    have hno : t.canSwitch c = false := by
      rw [hmem, if_pos rfl] at hsource
      simp [State.canSwitch, hsource]
    simp only [hno, Bool.false_eq_true, if_false]
    refine ⟨hframe, fun d => ⟨?_, (hitems d).2⟩⟩
    rw [(hitems d).1]
    by_cases hd : d = c
    · subst hd
      rw [hmem] at hset
      simp only [List.mem_append, List.mem_singleton, or_true, decide_true, Bool.true_and]
      rw [← hset]
      exact (Bool.and_eq_true_iff.1 hset.symm).2.symm ▸ rfl
    · simp [hd]
  | false =>
    rw [hmem, if_neg Bool.false_ne_true] at hsource
    have hcan := canSwitch_congr hA hC hsource
    have hstay (d : ChannelId) (hd : d ≠ c) : (decide (d ∈ cs ++ [c]) && s.canSwitch d) =
        (decide (d ∈ cs) && s.canSwitch d) := by simp [hd]
    rw [hcan]
    cases hs : s.canSwitch c with
    | false =>
      simp only [Bool.false_eq_true, if_false]
      refine ⟨hframe, fun d => ⟨?_, (hitems d).2⟩⟩
      by_cases hd : d = c
      · subst hd; rw [(hitems d).1, hs, Bool.and_false, Bool.and_false]
      · rw [(hitems d).1, hstay d hd]
    | true =>
      simp only [if_true]
      refine ⟨by rw [changeSource_frame, hframe], fun d => ?_⟩
      by_cases hd : d = c
      · subst hd
        have hline' : s.lines[d] = t.lines[d] := by
          have hsel : t.selectedOf d = s.selectedOf d := by simp only [State.selectedOf, hA, hsource]
          exact (hline.2 hsel).symm
        refine ⟨by simp [hasMember_insert, hs], by simp [hasMember_insert, changeSource_sources], ?_⟩
        exact lineFollows_congr (s' := t) (t' := t.changeSource d .backup) ⟨hsource.symm, hline'⟩ ⟨rfl, rfl⟩
          hT.symm rfl rfl (changeSource_follows t d .backup d)
      · have hv : c.val ≠ d.val := fun e => hd (Fin.ext e.symm)
        have hins : hasMember (insertMember set c) d = hasMember set d := by simp [hasMember_insert, hd]
        have hkeep : (t.changeSource c .backup).sources[d] = t.sources[d] := by simp [changeSource_sources, hv]
        refine ⟨by rw [hins, (hitems d).1, hstay d hd], by rw [hins, hkeep]; exact (hitems d).2.1, ?_⟩
        have hl := (changeSource_lines t c d .backup).2.2.2 hd
        exact lineFollows_congr (s' := s) (t' := t) ⟨rfl, rfl⟩ ⟨hkeep, hl⟩ rfl (by rw [changeSource_frame])
          (by rw [changeSource_frame]) (hitems d).2.2

theorem switching_foldl {s : State} : ∀ (cs done : List ChannelId) (a : State × BitVec 32), Switching s done a →
    Switching s (done ++ cs) (cs.foldl switchNext a)
  | [], done, a, h => by simpa using h
  | c :: cs, done, a, h => by
    have := switching_foldl cs (done ++ [c]) _ (switching_next c h)
    simpa using this

theorem applyBackup_switching (s : State) (cs : List ChannelId) : Switching s cs (s.applyBackup cs) := by
  have h := switching_foldl (s := s) cs [] (s, 0#32) ⟨rfl, fun c => by
    refine ⟨by simp [hasMember], by simp [hasMember], lineFollows_refl s c⟩⟩
  exact h

end Sys2Proof.Machine
end

section
/-! PROOF. What every step keeps of the switched sets and the source states (R134), and of the muted sets and the reason sets
(R131). -/

namespace Sys2Proof.Machine

/-! ### A MUTE action and its programmes (R131) -/

/-- The state with a rule's number in the reason sets of some present programmes. -/
def State.addReasons (s : State) (r : RuleId) (ps : List ProgId) : State := ps.foldl (fun t p => t.addReason r p) s

/-- One programme's gain with the rule's number added where it is present. -/
theorem addReason_gain (s : State) (r : RuleId) (p q : ProgId) : (s.addReason r p).gain[q] =
    if q = p ∧ s.present p = true then { s.gain[q] with reasons := insertMember s.gain[q].reasons r } else s.gain[q] := by
  unfold State.addReason
  cases hp : s.present p with
  | false => simp
  | true =>
    by_cases hq : q = p
    · subst hq; simp
    · have hv : p.val ≠ q.val := fun e => hq (Fin.ext e.symm)
      simp [hq, hv]

theorem insertMember_twice {w : Nat} (set : BitVec w) (i : Fin w) :
    insertMember (insertMember set i) i = insertMember set i := by
  unfold insertMember
  rw [BitVec.or_assoc, BitVec.or_self]

theorem addReasons_frame (s : State) (r : RuleId) (ps : List ProgId) :
    s.addReasons r ps = { s with gain := (s.addReasons r ps).gain } :=
  foldl_keeps (P := fun t : State => t = { s with gain := t.gain }) (f := fun t p => t.addReason r p)
    (fun t p ht => by rw [(reasons_frame t r p).1]; rw [ht]) ps s rfl

theorem addReasons_gain (r : RuleId) : ∀ (ps : List ProgId) (s : State) (q : ProgId), (s.addReasons r ps).gain[q] =
    if q ∈ ps ∧ s.present q = true then { s.gain[q] with reasons := insertMember s.gain[q].reasons r } else s.gain[q]
  | [], s, q => by simp [State.addReasons]
  | p :: ps, s, q => by
    have hstep : s.addReasons r (p :: ps) = (s.addReason r p).addReasons r ps := rfl
    have hpresent : (s.addReason r p).present q = s.present q := by rw [(reasons_frame s r p).1]; rfl
    rw [hstep, addReasons_gain r ps, hpresent, addReason_gain]
    by_cases hq : q = p
    · subst hq
      cases s.present q <;> simp [insertMember_twice]
    · simp [hq]

/-- The set that a list of programmes makes. -/
theorem hasMember_progSet (ps : List ProgId) (p : ProgId) : hasMember (progSet ps) p = decide (p ∈ ps) := by
  have h : ∀ (ps : List ProgId) (set : BitVec 8),
      hasMember (ps.foldl insertMember set) p = (hasMember set p || decide (p ∈ ps)) := by
    intro ps
    induction ps with
    | nil => simp
    | cons q qs ih =>
      intro set
      rw [List.foldl_cons, ih, hasMember_insert]
      simp [Bool.or_assoc]
  have hzero : hasMember (0#8) p = false := by simp [hasMember]
  rw [progSet, h, hzero, Bool.false_or]

/-- Every programme that a MUTE action names is present (R131). -/
theorem namedProgs_present {s : State} {e : RuleRecord} {p : ProgId} (h : p ∈ s.namedProgs e) : s.present p = true := by
  rw [namedProgs_iff] at h
  have hrec : s.record p ≠ none := by
    unfold Safety.Names at h
    split at h
    case h_1 | h_2 | h_3 => obtain ⟨⟨r, hr, -⟩, -⟩ := h; rw [hr]; exact Option.some_ne_none r
    case h_4 | h_5 | h_6 => exact h.2
    case h_7 | h_8 | h_9 => obtain ⟨r, m, hr, -⟩ := h; rw [hr]; exact Option.some_ne_none r
    case h_10 => exact h
  exact Option.isSome_iff_ne_none.2 hrec

/-! ### A rule's action, by its kind (R130) -/

section
variable {s : State} (r : RuleId) {x : RuleRecord}

theorem applyAction_none (h : x.action = .none) :
    s.applyAction r x = s.setRule r { s.alarm.rules[r] with muted := 0#8, switched := 0#32 } := by
  unfold State.applyAction; rw [h]

theorem applyAction_mute (h : x.action = .mute) : s.applyAction r x = (s.addReasons r (s.namedProgs x)).setRule r
    { s.alarm.rules[r] with muted := progSet (s.namedProgs x), switched := 0#32 } := by
  have halarm : (s.addReasons r (s.namedProgs x)).alarm = s.alarm := by rw [addReasons_frame]
  unfold State.applyAction
  rw [h]
  rw [← halarm]
  rfl

theorem applyAction_backup (h : x.action = .backup) : s.applyAction r x = (s.applyBackup (s.aimedChannels x)).1.setRule r
    { s.alarm.rules[r] with muted := 0#8, switched := (s.applyBackup (s.aimedChannels x)).2 } := by
  have halarm : (s.applyBackup (s.aimedChannels x)).1.alarm = s.alarm := by rw [applyBackup_frame]
  unfold State.applyAction
  rw [h]
  rw [← halarm]

end

/-- An action touches the rule's own sets alone (R130). -/
theorem applyAction_rule (s : State) (r q : RuleId) (x : RuleRecord) :
    (q ≠ r → (s.applyAction r x).alarm.rules[q] = s.alarm.rules[q]) ∧
    ∃ (muted : BitVec 8) (switched : BitVec 32),
      (s.applyAction r x).alarm.rules[r] = { s.alarm.rules[r] with muted := muted, switched := switched } := by
  have hadd : (s.addReasons r (s.namedProgs x)).alarm = s.alarm := by rw [addReasons_frame]
  have hswitch : (s.applyBackup (s.aimedChannels x)).1.alarm = s.alarm := by rw [applyBackup_frame]
  cases hx : x.action with
  | none =>
    rw [applyAction_none r hx]
    exact ⟨State.setRule_get_ne _ _ _ _, _, _, State.setRule_get_self _ _ _⟩
  | mute =>
    rw [applyAction_mute r hx]
    exact ⟨fun hq => by rw [State.setRule_get_ne _ _ _ _ hq, hadd], _, _, State.setRule_get_self _ _ _⟩
  | backup =>
    rw [applyAction_backup r hx]
    exact ⟨fun hq => by rw [State.setRule_get_ne _ _ _ _ hq, hswitch], _, _, State.setRule_get_self _ _ _⟩

/-! ### Sources and switched sets (R134) -/

theorem sourcesSound_congr {s t : State} (hS : t.sources = s.sources) (hM : t.active.slotMap = s.active.slotMap)
    (hR : ∀ r : RuleId, t.alarm.rules[r].switched = s.alarm.rules[r].switched) (h : Safety.SourcesSound s) :
    Safety.SourcesSound t := by
  unfold Safety.SourcesSound at h ⊢
  simp only [hS, hM, hR]
  exact h

/-- A channel of a switched set that goes to PRIMARY out of it keeps R134. -/
theorem sourcesSound_leave {s t : State} (c : ChannelId) (hS : t.sources = s.sources.set c.val .primary)
    (hM : t.active.slotMap = s.active.slotMap)
    (hR : ∀ (r : RuleId) (d : ChannelId), hasMember t.alarm.rules[r].switched d = true →
      d ≠ c ∧ hasMember s.alarm.rules[r].switched d = true) (h : Safety.SourcesSound s) : Safety.SourcesSound t := by
  obtain ⟨hbackup, hmember, hunique⟩ := h
  refine ⟨fun d hd => ?_, fun r d hd => ?_, fun r q d hr hq => hunique r q d (hR r d hr).2 (hR q d hq).2⟩
  · by_cases hdc : d = c
    · subst hdc
      exact absurd (by rw [hS]; simp) hd
    · have hv : c.val ≠ d.val := fun e => hdc (Fin.ext e.symm)
      have hs : t.sources[d] = s.sources[d] := by rw [hS]; simp [hv]
      rw [hM]
      exact hbackup d (hs ▸ hd)
  · obtain ⟨hdc, hd⟩ := hR r d hd
    have hv : c.val ≠ d.val := fun e => hdc (Fin.ext e.symm)
    have hs : t.sources[d] = s.sources[d] := by rw [hS]; simp [hv]
    rw [hs]
    exact hmember r d hd

/-- An action keeps R134: a rule's sets are made anew, of channels that stood in PRIMARY. -/
theorem sourcesSound_applyAction {s : State} (r : RuleId) (x : RuleRecord) (h : Safety.SourcesSound s) :
    Safety.SourcesSound (s.applyAction r x) := by
  obtain ⟨hbackup, hmember, hunique⟩ := h
  have hempty (t : State) (muted : BitVec 8) (hS : t.sources = s.sources) (hM : t.active.slotMap = s.active.slotMap)
      (hR : t.alarm.rules = s.alarm.rules) :
      Safety.SourcesSound (t.setRule r { s.alarm.rules[r] with muted := muted, switched := 0#32 }) := by
    have hR' : ∀ (q : RuleId) (c : ChannelId),
        hasMember (t.setRule r { s.alarm.rules[r] with muted := muted, switched := 0#32 }).alarm.rules[q].switched c = true →
        hasMember s.alarm.rules[q].switched c = true := by
      intro q c hq
      by_cases hqr : q = r
      · subst hqr
        rw [State.setRule_get_self] at hq
        simp [hasMember] at hq
      · rw [State.setRule_get_ne _ _ _ _ hqr, hR] at hq
        exact hq
    have hS' : (t.setRule r { s.alarm.rules[r] with muted := muted, switched := 0#32 }).sources = s.sources := hS
    have hM' : (t.setRule r { s.alarm.rules[r] with muted := muted, switched := 0#32 }).active.slotMap = s.active.slotMap := hM
    exact ⟨fun c hc => by rw [hS'] at hc; rw [hM']; exact hbackup c hc,
      fun q c hq => by rw [hS']; exact hmember q c (hR' q c hq),
      fun q q' c hq hq' => hunique q q' c (hR' q c hq) (hR' q' c hq')⟩
  cases hx : x.action with
  | none =>
    rw [applyAction_none r hx]
    exact hempty s _ rfl rfl rfl
  | mute =>
    rw [applyAction_mute r hx]
    have hframe := addReasons_frame s r (s.namedProgs x)
    generalize s.addReasons r (s.namedProgs x) = t at hframe ⊢
    exact hempty t _ (by rw [hframe]) (by rw [hframe]; rfl) (by rw [hframe])
  | backup =>
    rw [applyAction_backup r hx]
    obtain ⟨hframe, hitems⟩ := applyBackup_switching s (s.aimedChannels x)
    generalize s.applyBackup (s.aimedChannels x) = a at hframe hitems ⊢
    obtain ⟨t, set⟩ := a
    simp only at hframe hitems ⊢
    have hM : t.active.slotMap = s.active.slotMap := by rw [hframe]; rfl
    have hR : t.alarm = s.alarm := by rw [hframe]
    have hset (c : ChannelId) (hc : hasMember set c = true) : s.sources[c] = .primary ∧ t.sources[c] = .backup ∧
        s.active.slotMap[c].backup ≠ none := by
      obtain ⟨hmem, hsource, -⟩ := hitems c
      rw [hc] at hmem
      obtain ⟨hprimary, src, hsrc, -⟩ := (canSwitch_iff s c).1 (Bool.and_eq_true_iff.1 hmem.symm).2
      exact ⟨hprimary, by rw [hsource, if_pos hc], by rw [hsrc]; exact Option.some_ne_none src⟩
    have hstay (c : ChannelId) (hc : hasMember set c = false) : t.sources[c] = s.sources[c] := by
      rw [(hitems c).2.1, hc]; rfl
    have hother (q : RuleId) (hq : q ≠ r) : (t.setRule r { s.alarm.rules[r] with muted := 0#8, switched := set }).alarm.rules[q] =
        s.alarm.rules[q] := by rw [State.setRule_get_ne _ _ _ _ hq, hR]
    have hnot (q : RuleId) (c : ChannelId) (hq : hasMember s.alarm.rules[q].switched c = true) : hasMember set c = false := by
      cases hc : hasMember set c with
      | false => rfl
      | true => exact absurd ((hset c hc).1.symm.trans (hmember q c hq)) (by decide)
    refine ⟨fun c hc => ?_, fun q c hq => ?_, fun q q' c hq hq' => ?_⟩
    · rw [show (t.setRule r { s.alarm.rules[r] with muted := 0#8, switched := set }).active.slotMap = s.active.slotMap from hM]
      cases hmem : hasMember set c with
      | true => exact (hset c hmem).2.2
      | false => exact hbackup c (by rw [← hstay c hmem]; exact hc)
    · change t.sources[c] = .backup
      by_cases hqr : q = r
      · subst hqr
        rw [State.setRule_get_self] at hq
        exact (hset c hq).2.1
      · rw [hother q hqr] at hq
        rw [hstay c (hnot q c hq)]
        exact hmember q c hq
    · by_cases hqr : q = r <;> by_cases hqr' : q' = r
      · rw [hqr, hqr']
      · subst hqr
        rw [State.setRule_get_self] at hq
        rw [hother q' hqr'] at hq'
        exact absurd (hnot q' c hq') (by rw [hq]; decide)
      · subst hqr'
        rw [State.setRule_get_self] at hq'
        rw [hother q hqr] at hq
        exact absurd (hnot q c hq) (by rw [hq']; decide)
      · rw [hother q hqr] at hq
        rw [hother q' hqr'] at hq'
        exact hunique q q' c hq hq'

/-- A release keeps R134: the channels that it moves stood in no other rule's set. -/
theorem sourcesSound_release {s : State} (r : RuleId) (h : Safety.SourcesSound s) :
    Safety.SourcesSound (s.releaseAction r) := by
  obtain ⟨hbackup, hmember, hunique⟩ := h
  obtain ⟨-, hreleased⟩ := releaseAction_released s r
  have hM : (s.releaseAction r).active.slotMap = s.active.slotMap := by rw [releaseAction_frame]; rfl
  have hR (q : RuleId) (c : ChannelId) (hq : hasMember (s.releaseAction r).alarm.rules[q].switched c = true) :
      q ≠ r ∧ hasMember s.alarm.rules[q].switched c = true := by
    rw [releaseAction_alarm] at hq
    by_cases hqr : q = r
    · subst hqr
      rw [State.setRule_get_self] at hq
      simp [hasMember] at hq
    · rw [State.setRule_get_ne _ _ _ _ hqr] at hq
      exact ⟨hqr, hq⟩
  refine ⟨fun c hc => ?_, fun q c hq => ?_, fun q q' c hq hq' => hunique q q' c (hR q c hq).2 (hR q' c hq').2⟩
  · rw [hM]
    obtain ⟨hgone, hstay, -⟩ := hreleased c
    by_cases hin : ∃ q : RuleId, q = r ∧ hasMember s.alarm.rules[q].switched c = true
    · obtain ⟨q, -, hq⟩ := hin
      exact hbackup c (by rw [hmember q c hq]; decide)
    · exact hbackup c (hstay hin ▸ hc)
  · obtain ⟨hqr, hq'⟩ := hR q c hq
    obtain ⟨-, hstay, -⟩ := hreleased c
    rw [hstay fun ⟨p, hp, hpc⟩ => hqr (hunique q p c hq' hpc |>.trans hp)]
    exact hmember q c hq'

theorem sourcesSound_blocks : KeptByBlocks Safety.SourcesSound where
  links _ _ _ _ h := h
  lost _ h := h
  port _ _ _ h := h
  frame _ _ _ h := h
  tables s t ht h := sourcesSound_congr (s := s) (t := s.setTables t) rfl ht.slotMap (fun _ => rfl) h
  line _ _ _ _ h := h
  toPrimary s c hc h := by
    refine sourcesSound_leave (t := s.setSource c .primary) c rfl rfl (fun r d hd => ⟨fun e => ?_, hd⟩) h
    subst e
    have hin : hasMember s.alarm.rules[r].switched d = true := hd
    rcases hc with hp | hu
    · exact absurd (hp.symm.trans (h.2.1 r d hin)) (by decide)
    · exact absurd (hu r) (by rw [hin]; decide)
  restore s c h := by
    refine sourcesSound_leave (t := (s.setSource c .primary).leaveSwitched c) c rfl rfl (fun r d hd => ?_) h
    rw [leaveSwitched_rule, hasMember_erase, Bool.and_eq_true, decide_eq_true_eq] at hd
    exact ⟨hd.2, hd.1⟩
  emptySwitched s h := ⟨h.1, fun r c hr => by simp [hasMember] at hr, fun r q c hr => by simp [hasMember] at hr⟩
  gain _ _ _ _ _ _ h := h
  loud _ _ _ _ h := h
  due _ _ _ h := h
  rule s r x hx h := by
    refine sourcesSound_congr (s := s) (t := s.setRule r x) rfl rfl (fun q => ?_) h
    by_cases hq : q = r
    · subst hq; rw [State.setRule_get_self]; exact hx.2.1
    · rw [State.setRule_get_ne _ _ _ _ hq]
  raise s d ds _ h := by
    refine sourcesSound_applyAction (s := s.putRule d.rule .active 0 false) d.rule _
      (sourcesSound_congr (s := s.setDue (d :: ds)) rfl rfl (fun q => ?_) h)
    by_cases hq : q = d.rule
    · subst hq; simp [State.putRule, State.setDue]
    · exact congrArg Rule.switched (State.setRule_get_ne _ _ _ _ hq)
  hold s d ds h := by
    refine sourcesSound_congr (s := s.setDue (d :: ds)) rfl rfl (fun q => ?_) h
    by_cases hq : q = d.rule
    · subst hq; simp [State.putRule, State.setDue]
    · exact congrArg Rule.switched (State.setRule_get_ne _ _ _ _ hq)
  release s r ds h := sourcesSound_release (s := s) r h
  evaluate s h := by
    have hS : s.evaluateRules.sources = s.sources := by rw [evaluateRules_frame]
    have hT : s.evaluateRules.tables = s.tables := by rw [evaluateRules_frame]
    refine sourcesSound_congr hS (congrArg (fun t => (activeBank t).slotMap) hT) (fun r => ?_) h
    rw [(evaluateRules_alarm s).2 r]
    exact (ruleAfter_kept s r).2.1
  clearMeasure _ h := h
  roll s _ h := by rw [rollRecords_frame]; exact h
  window _ _ _ _ h := h
  swap s _ h := by
    obtain ⟨hbackup, hmember, hunique⟩ := h
    have hin (r : RuleId) (c : ChannelId) (hr : hasMember s.swap.alarm.rules[r].switched c = true) :
        hasMember s.alarm.rules[r].switched c = true ∧ s.active.slotMap[c] = s.swap.active.slotMap[c] := by
      rw [swap_switched, Bool.and_eq_true, decide_eq_true_eq] at hr
      exact hr
    refine ⟨fun c hc => ?_, fun r c hr => ?_, fun r q c hr hq => hunique r q c (hin r c hr).1 (hin q c hq).1⟩
    · rw [swap_sources] at hc
      split at hc
      · next heq => rw [← heq]; exact hbackup c hc
      · exact absurd rfl hc
    · obtain ⟨hr', heq⟩ := hin r c hr
      rw [swap_sources, if_pos heq]
      exact hmember r c hr'

theorem sourcesSound_kept : KeptBySteps Safety.SourcesSound where
  toKeptByBlocks := sourcesSound_blocks
  pending _ _ h := h
  hardwareReset s cause rate96 addr mlk _ := by
    refine ⟨fun c hc => ?_, fun r c hr => ?_, fun r q c hr => ?_⟩
    · simp [State.hardwareReset, resetState] at hc
    · simp [State.hardwareReset, resetState, resetAlarm, quietRule, hasMember] at hr
    · simp [State.hardwareReset, resetState, resetAlarm, quietRule, hasMember] at hr
  timebase _ _ _ _ h := h
  frameEnds s b _ h := by
    have hS : s.formAudio.sources = s.sources := by rw [formAudio_frame]
    have hA : s.formAudio.alarm = s.alarm := by rw [formAudio_frame]
    refine sourcesSound_congr (s := s) hS (congrArg (fun t => (activeBank t).slotMap) (formAudio_tables s)) (fun r => ?_) h
    exact congrArg (fun a : Alarm => a.rules[r].switched) hA

/-- Settles O58: a channel enters a switched set only from PRIMARY and with a backup, and leaves its set before it goes back. -/
theorem stepKeepsSourcesSound : Obligations.StepKeepsSourcesSound :=
  fun _ _ h ht => sourcesSound_kept.step h ht

end Sys2Proof.Machine
end

section
/-! PROOF. What every step keeps of the muted sets and the reason sets (R131). -/

namespace Sys2Proof.Machine

/-- The muted set of the rule in the state holds the programme only while its MUTE action holds. -/
def MutedSound (s : State) (r : RuleId) (x : Rule) : Prop :=
  ∀ p : ProgId, hasMember x.muted p = true →
    s.tables.ruleRecords[r].action = .mute ∧ raised x.state = true ∧ s.present p = true

/-- The reason set of a present programme holds the rule's number as the rule's muted set holds the programme. -/
def ReasonsFollow (s : State) (p : ProgId) (g : Gain) : Prop :=
  s.present p = true → ∀ r : RuleId, hasMember g.reasons r = hasMember s.alarm.rules[r].muted p

/-- The rules that are due are due once, and those to be raised are not raised (log entry 12). -/
def DueSound (s : State) (ds : List DueRule) : Prop :=
  (∀ d ∈ ds, d.kind = .raising → raised s.alarm.rules[d.rule].state = false) ∧ (ds.map (·.rule)).Nodup

theorem reasonsSound_iff (s : State) : Safety.ReasonsSound s ↔ (∀ r : RuleId, MutedSound s r s.alarm.rules[r]) ∧
    (∀ p : ProgId, ReasonsFollow s p s.gain[p]) ∧ DueSound s s.alarm.due := by
  unfold Safety.ReasonsSound MutedSound ReasonsFollow DueSound
  exact ⟨fun ⟨hm, hr, hd, hn⟩ => ⟨hm, fun p hp r => hr r p hp, hd, hn⟩,
    fun ⟨hm, hr, hd, hn⟩ => ⟨hm, fun r p hp => hr p hp r, hd, hn⟩⟩

/-- A state with the same actions, presence, muted sets, reasons and raised rules is sound as well. -/
theorem reasonsSound_congr {s t : State} (hT : t.tables = s.tables)
    (hmuted : ∀ r : RuleId, t.alarm.rules[r].muted = s.alarm.rules[r].muted)
    (hraised : ∀ r : RuleId, raised t.alarm.rules[r].state = raised s.alarm.rules[r].state)
    (hgain : ∀ p : ProgId, t.gain[p].reasons = s.gain[p].reasons) (hdue : t.alarm.due <:+ s.alarm.due)
    (h : Safety.ReasonsSound s) : Safety.ReasonsSound t := by
  have hpresent (p : ProgId) : t.present p = s.present p := by
    simp only [State.present, State.record, State.active, hT]
  obtain ⟨hm, hr, hd, hn⟩ := h
  refine ⟨fun r p hp => ?_, fun r p hp => ?_, fun d hd' hk => ?_, ?_⟩
  · rw [hT, hraised, hpresent]
    exact hm r p (hmuted r ▸ hp)
  · rw [hgain, hmuted]
    exact hr r p (hpresent p ▸ hp)
  · rw [hraised]
    exact hd d (hdue.subset hd') hk
  · exact hn.sublist (hdue.sublist.map _)

/-- An empty muted set is sound. -/
theorem mutedSound_empty (s : State) (r : RuleId) {x : Rule} (h : x.muted = 0#8) : MutedSound s r x := by
  intro p hp
  simp [h, hasMember] at hp

/-- A rule that is not raised holds no programme. -/
theorem muted_eq_false {s : State} (h : Safety.ReasonsSound s) {r : RuleId} (hr : raised s.alarm.rules[r].state = false)
    (p : ProgId) : hasMember s.alarm.rules[r].muted p = false := by
  cases hm : hasMember s.alarm.rules[r].muted p with
  | false => rfl
  | true => exact absurd (h.1 r p hm).2.1 (by rw [hr]; decide)

/-- One rule changes: the others' part of the invariant stands, and what is due without the rule is as sound as before. -/
theorem reasonsSound_changeRule {s t : State} (r : RuleId) (h : Safety.ReasonsSound s) (hT : t.tables = s.tables)
    (hother : ∀ q : RuleId, q ≠ r → t.alarm.rules[q] = s.alarm.rules[q]) (hr : MutedSound t r t.alarm.rules[r])
    (hgain : ∀ (p : ProgId), s.present p = true → ∀ q : RuleId,
      hasMember t.gain[p].reasons q = if q = r then hasMember t.alarm.rules[r].muted p else hasMember s.gain[p].reasons q)
    (hdue : t.alarm.due <:+ s.alarm.due)
    (hnot : ∀ d ∈ t.alarm.due, d.rule = r → d.kind = .raising → raised t.alarm.rules[r].state = false) :
    Safety.ReasonsSound t := by
  have hpresent (p : ProgId) : t.present p = s.present p := by
    simp only [State.present, State.record, State.active, hT]
  obtain ⟨hm, hreasons, hd, hn⟩ := h
  refine ⟨fun q p hp => ?_, fun q p hp => ?_, fun d hd' hk => ?_, ?_⟩
  · by_cases hq : q = r
    · subst hq; exact hr p hp
    · rw [hother q hq] at hp ⊢
      rw [hT, hpresent]
      exact hm q p hp
  · rw [hpresent] at hp
    rw [hgain p hp q]
    split
    · next hq => subst hq; rfl
    · next hq => rw [hother q hq]; exact hreasons q p hp
  · by_cases hq : d.rule = r
    · subst hq; exact hnot d hd' rfl hk
    · rw [hother _ hq]; exact hd d (hdue.subset hd') hk
  · exact hn.sublist (hdue.sublist.map _)

/-- Rules that are due after the first are other rules. -/
theorem due_tail_ne {s : State} {d : DueRule} {ds : List DueRule} (h : Safety.ReasonsSound (s.setDue (d :: ds))) :
    ∀ x ∈ ds, x.rule ≠ d.rule := by
  have hn : ((d :: ds).map (·.rule)).Nodup := h.2.2.2
  intro x hx e
  exact (List.nodup_cons.1 (List.map_cons ▸ hn)).1 (List.mem_map.2 ⟨x, hx, e⟩)

/-- The muted set that an action leaves its rule (R131). -/
theorem applyAction_muted (s : State) (r : RuleId) (x : RuleRecord) (p : ProgId) :
    hasMember (s.applyAction r x).alarm.rules[r].muted p = (decide (x.action = .mute) && decide (p ∈ s.namedProgs x)) := by
  cases hx : x.action with
  | none => rw [applyAction_none r hx, State.setRule_get_self]; simp [hasMember]
  | mute => rw [applyAction_mute r hx, State.setRule_get_self, hasMember_progSet]; rfl
  | backup => rw [applyAction_backup r hx, State.setRule_get_self]; simp [hasMember]

/-- The gain state that an action leaves a programme (R131). -/
theorem applyAction_gain (s : State) (r : RuleId) (x : RuleRecord) (p : ProgId) : (s.applyAction r x).gain[p] =
    if x.action = .mute ∧ p ∈ s.namedProgs x then { s.gain[p] with reasons := insertMember s.gain[p].reasons r }
    else s.gain[p] := by
  cases hx : x.action with
  | none => rw [applyAction_none r hx]; simp
  | mute =>
    rw [applyAction_mute r hx, State.setRule_gain, addReasons_gain]
    by_cases hp : p ∈ s.namedProgs x
    · rw [if_pos ⟨hp, namedProgs_present hp⟩, if_pos ⟨rfl, hp⟩]
    · rw [if_neg (fun h => hp h.1), if_neg (fun h => hp h.2)]
  | backup =>
    have hgain : (s.applyBackup (s.aimedChannels x)).1.gain = s.gain := by rw [applyBackup_frame]
    rw [applyAction_backup r hx, State.setRule_gain, hgain]
    simp

/-- A raise puts the rule's number where its MUTE action says (R130, R131). -/
theorem reasonsSound_raise {s : State} {d : DueRule} {ds : List DueRule} (hk : d.kind = .raising)
    (h : Safety.ReasonsSound (s.setDue (d :: ds))) :
    Safety.ReasonsSound
      (((s.putRule d.rule .active 0 false).applyAction d.rule s.tables.ruleRecords[d.rule]).setDue ds) := by
  have htail := due_tail_ne h
  have hunraised : raised s.alarm.rules[d.rule].state = false := h.2.2.1 d List.mem_cons_self hk
  have hfree (p : ProgId) (hp : s.present p = true) : hasMember s.gain[p].reasons d.rule = false :=
    (h.2.1 d.rule p hp).trans (muted_eq_false h hunraised p)
  have hput (q : RuleId) (hq : q ≠ d.rule) : (s.putRule d.rule .active 0 false).alarm.rules[q] = s.alarm.rules[q] :=
    State.setRule_get_ne _ _ _ _ hq
  have hactive : (s.putRule d.rule .active 0 false).alarm.rules[d.rule] =
      { s.alarm.rules[d.rule] with state := .active, timer := 0, ack := false } := State.setRule_get_self _ _ _
  have htables : (s.putRule d.rule .active 0 false).tables = s.tables := rfl
  have hgains : (s.putRule d.rule .active 0 false).gain = s.gain := rfl
  have hpresent (p : ProgId) : (s.putRule d.rule .active 0 false).present p = s.present p := rfl
  generalize s.putRule d.rule .active 0 false = u at hput hactive htables hgains hpresent ⊢
  have hT : (u.applyAction d.rule s.tables.ruleRecords[d.rule]).tables = u.tables := by rw [applyAction_frame]
  have hrules (q : RuleId) := applyAction_rule u d.rule q s.tables.ruleRecords[d.rule]
  have hmuted := applyAction_muted u d.rule s.tables.ruleRecords[d.rule]
  have hgain := applyAction_gain u d.rule s.tables.ruleRecords[d.rule]
  generalize u.applyAction d.rule s.tables.ruleRecords[d.rule] = t at hT hrules hmuted hgain ⊢
  have hactive' : t.alarm.rules[d.rule].state = .active := by
    obtain ⟨muted, switched, hrule⟩ := (hrules d.rule).2
    rw [hrule, hactive]
  have hmem (p : ProgId) : hasMember t.alarm.rules[d.rule].muted p = true ↔
      s.tables.ruleRecords[d.rule].action = .mute ∧ p ∈ u.namedProgs s.tables.ruleRecords[d.rule] := by
    rw [hmuted, Bool.and_eq_true, decide_eq_true_eq, decide_eq_true_eq]
  have hT' : t.tables = s.tables := hT.trans htables
  refine reasonsSound_changeRule d.rule h hT' (fun q hq => ((hrules q).1 hq).trans (hput q hq)) (fun p hp => ?_)
    (fun p hp q => ?_) (List.suffix_cons d ds) (fun e he hr => absurd hr (htail e he))
  · obtain ⟨haction, hnamed⟩ := (hmem p).1 hp
    have hpres : (t.setDue ds).present p = u.present p := congrArg (fun x => ((activeBank x).programmes[p]).isSome) hT
    refine ⟨(congrArg (fun x : Tables => x.ruleRecords[d.rule].action) hT').trans haction, ?_,
      hpres.trans (namedProgs_present hnamed)⟩
    exact congrArg raised hactive'
  · change hasMember t.gain[p].reasons q =
      if q = d.rule then hasMember t.alarm.rules[d.rule].muted p else hasMember s.gain[p].reasons q
    rw [Bool.eq_iff_iff, hgain, hgains]
    have hfree' := hfree p hp
    by_cases hnamed : s.tables.ruleRecords[d.rule].action = .mute ∧ p ∈ u.namedProgs s.tables.ruleRecords[d.rule]
    · rw [if_pos hnamed, hasMember_insert]
      by_cases hq : q = d.rule
      · rw [if_pos hq, hmem]; exact iff_of_true (by simp [hq]) hnamed
      · simp [hq]
    · rw [if_neg hnamed]
      by_cases hq : q = d.rule
      · rw [if_pos hq, hmem, hq, hfree']; exact iff_of_false Bool.false_ne_true hnamed
      · rw [if_neg hq]

/-- A release takes the rule's number out of the reason sets that it held (R133). -/
theorem reasonsSound_release {s : State} (r : RuleId) {ds : List DueRule} (h : Safety.ReasonsSound (s.setDue ds)) :
    Safety.ReasonsSound ((s.releaseAction r).setDue ds) := by
  obtain ⟨hreleased, -⟩ := releaseAction_released s r
  have hself : ((s.releaseAction r).setDue ds).alarm.rules[r] = { s.alarm.rules[r] with muted := 0#8, switched := 0#32 } := by
    change (s.releaseAction r).alarm.rules[r] = _
    rw [releaseAction_alarm]; exact State.setRule_get_self _ _ _
  have hother (q : RuleId) (hq : q ≠ r) : ((s.releaseAction r).setDue ds).alarm.rules[q] = s.alarm.rules[q] := by
    change (s.releaseAction r).alarm.rules[q] = _
    rw [releaseAction_alarm]; exact State.setRule_get_ne _ _ _ _ hq
  refine reasonsSound_changeRule r h (by rw [releaseAction_frame]; rfl) hother
    (mutedSound_empty _ r (by rw [hself])) (fun p hp q => ?_) (List.suffix_refl ds) (fun d hd hr hk => ?_)
  · have hpresent : s.record p ≠ none := Option.isSome_iff_ne_none.1 hp
    have hgain : hasMember (s.releaseAction r).gain[p].reasons q = true ↔ hasMember s.gain[p].reasons q = true ∧
        ¬ (q = r ∧ hasMember s.alarm.rules[q].muted p = true ∧ s.record p ≠ none) := (hreleased p).2 q
    change hasMember (s.releaseAction r).gain[p].reasons q = if q = r then _ else hasMember s.gain[p].reasons q
    rw [hself]
    have hfollow : hasMember s.gain[p].reasons q = hasMember s.alarm.rules[q].muted p := h.2.1 q p hp
    split
    · next hq =>
      rw [Bool.eq_iff_iff, hgain, hfollow]
      simp [hq, hpresent, hasMember]
    · next hq =>
      rw [Bool.eq_iff_iff, hgain]
      simp [hq]
  · rw [hself]
    exact (congrArg (fun q : RuleId => raised s.alarm.rules[q].state) hr).symm.trans (h.2.2.1 d hd hk)

theorem reasonsSound_evaluate {s : State} (h : Safety.ReasonsSound s) : Safety.ReasonsSound s.evaluateRules := by
  obtain ⟨hdue, hrules⟩ := evaluateRules_alarm s
  have hT : s.evaluateRules.tables = s.tables := by rw [evaluateRules_frame]
  have hG : s.evaluateRules.gain = s.gain := by rw [evaluateRules_frame]
  have hsorted := evaluateRules_due_sorted s
  generalize s.evaluateRules = t at hdue hrules hT hG hsorted ⊢
  have hempty : Safety.ReasonsSound (t.setDue []) := by
    refine reasonsSound_congr (s := s) hT (fun r => ?_) (fun r => ?_) (fun p => ?_) List.nil_suffix h
    · exact (congrArg Rule.muted (hrules r)).trans (ruleAfter_kept s r).1
    · exact (congrArg (fun x : Rule => raised x.state) (hrules r)).trans (ruleAfter_kept s r).2.2
    · exact congrArg (fun g : Vector Gain 8 => g[p].reasons) hG
  refine ⟨hempty.1, hempty.2.1, fun d hd hk => ?_, (List.pairwise_map.2 hsorted).imp ne_of_lt⟩
  rw [hdue] at hd
  obtain ⟨r, -, hr⟩ := List.mem_filterMap.1 hd
  obtain rfl := dueAfter_rule hr
  rw [hrules, (ruleAfter_kept s _).2.2]
  exact dueAfter_raising hr hk

theorem present_of_records {t t' : Tables} {p : ProgId}
    (h : (activeBank t').programmes[p].map limits = (activeBank t).programmes[p].map limits) :
    (activeBank t').programmes[p].isSome = (activeBank t).programmes[p].isSome := by
  rw [← Option.isSome_map (f := limits), h, Option.isSome_map]

/-- A swap keeps the reasons of a programme that stays present (R147). -/
theorem swappedGain_reasons (o n : ProgRecord) (g : Gain) :
    (swappedGain (some o) (some n) g).reasons = g.reasons := by
  unfold swappedGain
  simp only
  split
  · rfl
  · unfold swapGain emptyQueue
    simp only
    split <;> rfl

theorem reasonsSound_swap {s : State} (h : Safety.ReasonsSound s) : Safety.ReasonsSound s.swap := by
  obtain ⟨hm, hreasons, hd, hn⟩ := h
  have hstate (r : RuleId) : s.swap.alarm.rules[r].state = s.alarm.rules[r].state := by rw [swap_rule]
  have hrecords : s.swap.tables.ruleRecords = s.tables.ruleRecords := by rw [swap_tables]; rfl
  refine ⟨fun r p hp => ?_, fun r p hp => ?_, fun d hd' hk => ?_, ?_⟩
  · rw [swap_muted, Bool.and_eq_true] at hp
    obtain ⟨haction, hraised, hpresent⟩ := hm r p hp.1
    refine ⟨by rw [hrecords]; exact haction, by rw [hstate]; exact hraised, ?_⟩
    have hstays : leaves (s.record p) (s.swap.record p) = false := by simpa using hp.2
    have hold : (s.record p).isSome = true := hpresent
    unfold State.present
    rw [leaves, hold, Bool.true_and] at hstays
    simpa using hstays
  · rw [swap_gain, swap_muted]
    obtain ⟨n, hnew⟩ := (State.present_iff _ p).1 hp
    rw [hnew]
    cases hold : s.record p with
    | none =>
      have hnot : hasMember s.alarm.rules[r].muted p = false := by
        cases hmem : hasMember s.alarm.rules[r].muted p with
        | false => rfl
        | true => exact absurd (hm r p hmem).2.2 (by simp [State.present, hold])
      rw [hnot]
      simp [swappedGain, freshGain, hasMember]
    | some o =>
      have hpres : s.present p = true := (State.present_iff s p).2 ⟨o, hold⟩
      rw [swappedGain_reasons, hreasons r p hpres]
      simp [leaves]
  · rw [swap_due] at hd'
    rw [hstate]
    exact hd d hd' hk
  · rw [swap_due]; exact hn

theorem reasonsSound_blocks : KeptByBlocks Safety.ReasonsSound where
  links _ _ _ _ h := h
  lost _ h := h
  port _ _ _ h := h
  frame _ _ _ h := h
  tables s t ht h := by
    have hpresent (p : ProgId) : (s.setTables t).present p = s.present p := present_of_records (ht.records p)
    obtain ⟨hm, hreasons, hd, hn⟩ := h
    refine ⟨fun r p hp => ?_, fun r p hp => hreasons r p ((hpresent p).symm.trans hp), hd, hn⟩
    obtain ⟨haction, hraised, hpres⟩ := hm r p hp
    rcases ht.actions r with e | e
    · exact ⟨e.trans haction, hraised, (hpresent p).trans hpres⟩
    · exact absurd hraised (by rw [e]; decide)
  line _ _ _ _ h := h
  toPrimary _ _ _ h := h
  restore s c h := reasonsSound_congr (s := s) rfl (fun r => by rw [leaveSwitched_rule]; rfl)
    (fun r => by rw [leaveSwitched_rule]; rfl) (fun _ => rfl) (List.suffix_refl _) h
  emptySwitched s h := reasonsSound_congr (s := s) rfl (fun r => by simp) (fun r => by simp) (fun _ => rfl)
    (List.suffix_refl _) h
  gain s p r x hr hx h := by
    refine reasonsSound_congr (s := s) rfl (fun _ => rfl) (fun _ => rfl) (fun q => ?_) (List.suffix_refl _) h
    by_cases hq : q = p
    · subst hq; rw [State.setGain_get_self]; exact hx.1
    · rw [State.setGain_get_ne _ _ _ _ hq]
  loud _ _ _ _ h := h
  due s ds hds h := reasonsSound_congr (s := s) rfl (fun _ => rfl) (fun _ => rfl) (fun _ => rfl) hds h
  rule s r x hx h := by
    obtain ⟨hmuted, -, hraised⟩ := hx
    refine reasonsSound_changeRule r h rfl (fun q hq => State.setRule_get_ne _ _ _ _ hq) (fun p hp => ?_)
      (fun p hp q => ?_) (List.suffix_refl _) (fun d hd hr hk => ?_)
    · rw [State.setRule_get_self] at hp ⊢
      rw [hmuted] at hp
      obtain ⟨haction, hr, hpresent⟩ := h.1 r p hp
      rcases hraised with e | ⟨e, -⟩
      · exact ⟨haction, e.trans hr, hpresent⟩
      · rw [e] at hp; simp [hasMember] at hp
    · rw [State.setRule_get_self, hmuted]
      split
      · next hq => subst hq; exact h.2.1 q p hp
      · rfl
    · rw [State.setRule_get_self]
      rcases hraised with e | ⟨-, e⟩
      · exact e.trans ((congrArg (fun q : RuleId => raised s.alarm.rules[q].state) hr).symm.trans (h.2.2.1 d hd hk))
      · exact e
  raise s d ds hk h := reasonsSound_raise hk h
  hold s d ds h := by
    have htail := due_tail_ne h
    have hself : ((s.putRule d.rule .held 0 false).setDue ds).alarm.rules[d.rule] =
        { s.alarm.rules[d.rule] with state := .held, timer := 0, ack := false } := State.setRule_get_self _ _ _
    refine reasonsSound_changeRule d.rule h rfl (fun q hq => State.setRule_get_ne _ _ _ _ hq) (fun p hp => ?_)
      (fun p hp q => ?_) (List.suffix_cons d ds) (fun e he hr => absurd hr (htail e he))
    · rw [hself] at hp ⊢
      obtain ⟨haction, -, hpresent⟩ := h.1 d.rule p hp
      exact ⟨haction, rfl, hpresent⟩
    · rw [hself]
      split
      · next hq => subst hq; exact h.2.1 d.rule p hp
      · rfl
  release s r ds h := reasonsSound_release r h
  evaluate _ h := reasonsSound_evaluate h
  clearMeasure _ h := h
  roll s _ h := by rw [rollRecords_frame]; exact h
  window _ _ _ _ h := h
  swap _ _ h := reasonsSound_swap h

theorem reasonsSound_kept : KeptBySteps Safety.ReasonsSound where
  toKeptByBlocks := reasonsSound_blocks
  pending _ _ h := h
  hardwareReset s cause rate96 addr mlk _ := by
    refine ⟨fun r p hp => ?_, fun r p hp => ?_, fun d hd => ?_, List.nodup_nil⟩
    · simp [State.hardwareReset, resetState, resetAlarm, quietRule, hasMember] at hp
    · simp [State.hardwareReset, resetState, resetAlarm, quietRule, hasMember, freshGain]
    · simp [State.hardwareReset, resetState, resetAlarm] at hd
  timebase _ _ _ _ h := h
  frameEnds s b _ h := by
    have hA : s.formAudio.alarm = s.alarm := by rw [formAudio_frame]
    refine reasonsSound_congr (s := s) (formAudio_tables s) (fun r => ?_) (fun r => ?_) (fun p => ?_) ?_ h
    · exact congrArg (fun a : Alarm => a.rules[r].muted) hA
    · exact congrArg (fun a : Alarm => raised a.rules[r].state) hA
    · exact congrArg (fun g : Vector Gain 8 => g[p].reasons) (formAudio_gain s)
    · exact (congrArg Alarm.due hA).symm ▸ List.suffix_refl _

/-- Settles O59: a raise adds the rule's number where its muted set says, and a release takes both away. -/
theorem stepKeepsReasonsSound : Obligations.StepKeepsReasonsSound :=
  fun _ _ h ht => reasonsSound_kept.step h ht

end Sys2Proof.Machine
end

section
/-! PROOF. The commands in general, and the reference monitor (chapter 1): O1, O5, O6, O7, O8. -/

namespace Sys2Proof.Machine

/-- Settles O1: `step` reads the queue of waiting commands and nothing else before it dispatches. -/
theorem stepTakesTheFrontCommand : Obligations.StepTakesTheFrontCommand := by
  refine ⟨fun s c rest h => ?_, fun s h => ?_⟩
  · simp only [step, h]; rfl
  · simp only [step, h]

/-! ### The two completions that every event takes first -/

theorem goodCountDue_iff (t : Timebase) :
    goodCountDue t = true ↔ (t.ref = .absent ∨ t.ref = .regain) ∧ 256 ≤ t.good := by simp [goodCountDue]

theorem refinementDue_iff (t : Timebase) : refinementDue t = true ↔ t.ref = .locked ∧ 256 ≤ t.refineCount := by
  simp [refinementDue]

/-- With neither completion due there is nothing to settle (log entry 3). -/
theorem settleTimebase_eq_self {t : Timebase} (hgood : goodCountDue t = false) (hrefine : refinementDue t = false) :
    settleTimebase t = t := by
  have h : goodCountComplete t = t := by simp [goodCountComplete, hgood]
  rw [settleTimebase, h, refinementComplete, hrefine]; rfl

theorem settleTimebase_of_counting {t : Timebase} (href : t.ref = .absent ∨ t.ref = .regain) (hgood : t.good < 256) :
    settleTimebase t = t := by
  apply settleTimebase_eq_self
  · rw [Bool.eq_false_iff, ne_eq, goodCountDue_iff]; omega
  · rw [Bool.eq_false_iff, ne_eq, refinementDue_iff]; rcases href with h | h <;> simp [h]

theorem settleTimebase_of_locked {t : Timebase} (href : t.ref = .locked) (hrefine : t.refineCount < 256) :
    settleTimebase t = t := by
  apply settleTimebase_eq_self
  · rw [Bool.eq_false_iff, ne_eq, goodCountDue_iff]; simp [href]
  · rw [Bool.eq_false_iff, ne_eq, refinementDue_iff]; omega

theorem settleTimebase_of_holdover {t : Timebase} (href : t.ref = .holdover) : settleTimebase t = t := by
  apply settleTimebase_eq_self
  · rw [Bool.eq_false_iff, ne_eq, goodCountDue_iff]; simp [href]
  · rw [Bool.eq_false_iff, ne_eq, refinementDue_iff]; simp [href]

theorem inBand_iff (held : Nat) (i : Int) : inBand held i = true ↔ (i * 256 - held).natAbs ≤ held / 1000 := by
  simp [inBand]

/-! ### A pulse outside REF_LOCKED -/

/-- Where the good count runs, a pulse is tested against the nominal held period in REF_ABSENT and against the held period in
REF_REGAIN (R5). -/
theorem refPulse_of_counting {t : Timebase} (tick : Nat) (href : t.ref = .absent ∨ t.ref = .regain) (hgood : t.good < 256) :
    refPulse tick t = testPulse (if t.ref = .absent then nominalHeld t.rate96 else t.held) tick t := by
  unfold refPulse
  rw [settleTimebase_of_counting href hgood]
  rcases href with h | h <;> simp [h]

/-- Settles O5: a pulse outside REF_LOCKED takes the good count test of R5, or ends REF_HOLDOVER (R11). -/
theorem refPulseOutsideLocked : Obligations.RefPulseOutsideLocked := by
  refine ⟨fun s tick hgood href => ?_, fun s tick href => ?_⟩
  · have hexec : exec (.refPulse tick) s =
        .next (s.setTb (testPulse (if s.tb.ref = .absent then nominalHeld s.tb.rate96 else s.tb.held) tick s.tb)) := by
      rw [← refPulse_of_counting tick href hgood]; rfl
    refine ⟨fun hlast => ?_, fun last hlast => ⟨fun hin => ?_, fun hout => ?_⟩⟩ <;> rw [hexec] <;>
      simp only [testPulse, hlast]
    · rfl
    · rw [if_pos ((inBand_iff _ _).2 hin)]; rfl
    · rw [if_neg (fun h => absurd ((inBand_iff _ _).1 h) (Nat.not_le.2 hout))]; rfl
  · have h : refPulse tick s.tb = { s.tb with ref := .regain, lastPulse := some tick, good := 0, goodSum := 0 } := by
      unfold refPulse
      simp [settleTimebase_of_holdover href, href]
    exact congrArg (fun t => Host.Outcome.next (s.setTb t)) h

/-! ### A pulse in REF_LOCKED -/

theorem inWindow_iff (tick : Nat) (t : Timebase) :
    inWindow tick t = true ↔ 2 * t.expected ≤ 512 * tick + t.held ∧ 512 * tick ≤ 2 * t.expected + t.held := by
  simp [inWindow]

theorem inAcceptedWindow_iff (tick : Nat) (t : Timebase) :
    inAcceptedWindow tick t = true ↔ ∃ e, t.acceptedEnd = some e ∧ 512 * tick ≤ e := by
  cases h : t.acceptedEnd <;> simp [inAcceptedWindow, h]

theorem refPulse_of_locked {t : Timebase} (tick : Nat) (href : t.ref = .locked) (hrefine : t.refineCount < 256) :
    refPulse tick t = if inWindow tick t && !inAcceptedWindow tick t then acceptPulse tick t else t := by
  unfold refPulse
  simp [settleTimebase_of_locked href hrefine, href]

/-- The refinement block moves its own three fields alone. -/
theorem refine_frame (tick : Nat) (t : Timebase) :
    refine tick t = { t with refineFrom := some tick, refineCount := (refine tick t).refineCount,
                             refineSum := (refine tick t).refineSum } := by
  unfold refine; split <;> [skip; (dsimp only; split)] <;> rfl

/-- The block starts with its first pulse (R10). -/
theorem refine_none {tick : Nat} {t : Timebase} (h : t.refineFrom = none) :
    (refine tick t).refineCount = 0 ∧ (refine tick t).refineSum = 0 := by simp [refine, h]

/-- The block takes an interval that is in band, and restarts with the pulse otherwise (R10). -/
theorem refine_some {tick last : Nat} {t : Timebase} (h : t.refineFrom = some last) :
    ((((tick : Int) - last) * 256 - t.held).natAbs ≤ t.held / 1000 →
      (refine tick t).refineCount = t.refineCount + 1 ∧
      (refine tick t).refineSum = t.refineSum + ((tick : Int) - last).toNat) ∧
    (t.held / 1000 < (((tick : Int) - last) * 256 - t.held).natAbs →
      (refine tick t).refineCount = 0 ∧ (refine tick t).refineSum = 0) := by
  simp only [refine, h]
  refine ⟨fun hin => ?_, fun hout => ?_⟩
  · rw [if_pos ((inBand_iff _ _).2 hin)]; exact ⟨rfl, rfl⟩
  · rw [if_neg (fun h => absurd ((inBand_iff _ _).1 h) (Nat.not_le.2 hout))]; exact ⟨rfl, rfl⟩

/-- An accepted pulse, field by field (R8, R10). -/
theorem acceptPulse_eq (tick : Nat) (t : Timebase) :
    acceptPulse tick t =
      { t with refineFrom := some tick, refineCount := (refine tick t).refineCount, refineSum := (refine tick t).refineSum,
               acceptedEnd := some (2 * t.expected + t.held), missing := 0, lastPulse := some tick,
               expected := 256 * tick + t.held, reached := false,
               boundary := if t.reached then t.boundary else some (256 * tick) } := by
  unfold acceptPulse; rw [refine_frame]

/-- Settles O6: in REF_LOCKED a pulse is a stray or is accepted, as the window of E and the last accepted window say (R8). -/
theorem refPulseInLocked : Obligations.RefPulseInLocked := by
  intro s tick href hrefine
  have hexec : ∀ t, refPulse tick s.tb = t → exec (.refPulse tick) s = .next (s.setTb t) := fun t h => h ▸ rfl
  have hstray : (inWindow tick s.tb && !inAcceptedWindow tick s.tb) = false → exec (.refPulse tick) s = .next s :=
    fun h => hexec s.tb (by rw [refPulse_of_locked tick href hrefine, h]; rfl)
  refine ⟨fun hout => hstray ?_, fun e he hle => hstray ?_, fun hlo hhi hnew => ?_⟩
  · have : inWindow tick s.tb = false := by rw [Bool.eq_false_iff, ne_eq, inWindow_iff]; omega
    simp [this]
  · simp [(inAcceptedWindow_iff tick s.tb).2 ⟨e, he, hle⟩]
  · have hin : inWindow tick s.tb = true := (inWindow_iff _ _).2 ⟨hlo, hhi⟩
    have hfresh : inAcceptedWindow tick s.tb = false := by
      rw [Bool.eq_false_iff, ne_eq, inAcceptedWindow_iff]
      rintro ⟨e, he, hle⟩
      exact absurd hle (Nat.not_le.2 (hnew e he))
    have haccept : refPulse tick s.tb = acceptPulse tick s.tb := by
      rw [refPulse_of_locked tick href hrefine, hin, hfresh]; rfl
    refine ⟨s.setTb (acceptPulse tick s.tb), hexec _ haccept, rfl, ?_⟩
    rw [State.setTb_tb, acceptPulse_eq]
    exact ⟨href, rfl, rfl, rfl, rfl, rfl, rfl, rfl, rfl, rfl, rfl, rfl, rfl, refine_none, fun _ => refine_some⟩

/-! ### The flywheel -/

/-- Settles O7: in REF_LOCKED the frame begins at E, and the window closes on a missing pulse or enters REF_HOLDOVER (R8, R9,
R12). -/
theorem expectedInstantAndWindowClose : Obligations.ExpectedInstantAndWindowClose := by
  intro s href hrefine hboundary
  have hsettle := settleTimebase_of_locked href hrefine
  have hclose : s.tb.reached = true → windowCloseDue s.tb = true := fun h => by simp [windowCloseDue, href, h, hboundary]
  refine ⟨fun hreached => ?_, fun hreached hmissing => ?_, fun hreached hmissing => ?_⟩
  · have h : expectedReached s.tb = { s.tb with boundary := some s.tb.expected, reached := true } := by
      simp [expectedReached, hsettle, expectedDue, href, hreached, hboundary]
    exact congrArg (fun t => Host.Outcome.next (s.setTb t)) h
  · have h : windowClose s.tb = { s.tb with
        missing := s.tb.missing + 1, refineCount := 0, refineSum := 0, refineFrom := none,
        expected := s.tb.expected + s.tb.held, reached := false } := by
      rw [windowClose, hsettle, if_pos (hclose hreached)]
      exact if_neg (Nat.not_le.2 (Nat.succ_lt_succ hmissing))
    exact congrArg (fun t => Host.Outcome.next (s.setTb t)) h
  · have hplaced : ∀ n : Nat, n - n % 256 = n / 256 * 256 := fun n => by omega
    have h : windowClose s.tb = { s.tb with
        ref := .holdover, lost := true, missing := 0, lastPulse := none, refineCount := 0, refineSum := 0,
        refineFrom := none, reached := false, boundary := some ((s.tb.expected + s.tb.held) / 256 * 256),
        remainder := (s.tb.expected + s.tb.held) % 256 } := by
      rw [windowClose, hsettle, if_pos (hclose hreached), ← hplaced]
      exact if_pos (by dsimp only; omega)
    exact congrArg (fun t => Host.Outcome.next (s.setTb t)) h

/-! ### The end of a good count -/

/-- Settles O8: the good count is lost with its pulses, or completes into REF_LOCKED, and the refinement block completes there
(R6, R7, R10, R12). -/
theorem goodCountEnds : Obligations.GoodCountEnds := by
  refine ⟨fun s hgood => ⟨fun last hlast href => ?_, fun last hlast href => ?_, fun hlast href => ?_⟩,
    fun s => ⟨fun v href hgood hlast => ?_, fun href hrefine => ?_⟩⟩
  · have h : pulsesLost s.tb = { s.tb with good := 0, goodSum := 0, lastPulse := none } := by
      simp [pulsesLost, settleTimebase_of_counting (.inl href) hgood, href, hlast]
    exact congrArg (fun t => Host.Outcome.next (s.setTb t)) h
  · have h : pulsesLost s.tb =
        { s.tb with good := 0, goodSum := 0, lastPulse := none, ref := .holdover, lost := true } := by
      simp [pulsesLost, settleTimebase_of_counting (.inr href) hgood, href, hlast]
    exact congrArg (fun t => Host.Outcome.next (s.setTb t)) h
  · have h : pulsesLost s.tb = s.tb := by
      unfold pulsesLost
      rw [settleTimebase_of_counting href hgood]
      rcases href with href | href <;> simp [href, hlast]
    exact congrArg (fun t => Host.Outcome.next (s.setTb t)) h
  · have h : goodCountComplete s.tb = { s.tb with
        ref := .locked, held := s.tb.goodSum, expected := 256 * v + s.tb.goodSum, reached := false,
        acceptedEnd := none, missing := 0, good := 0, goodSum := 0, refineCount := 0, refineSum := 0,
        refineFrom := some v,
        boundary := s.tb.boundary.filter fun b => decide (2 * b + s.tb.goodSum < 2 * (256 * v + s.tb.goodSum)) } := by
      rw [goodCountComplete, if_pos ((goodCountDue_iff s.tb).2 ⟨href, hgood.ge⟩)]
      simp only [completeGoodCount, hlast, Option.getD_some]
    exact congrArg (fun t => Host.Outcome.next (s.setTb t)) h
  · have h : refinementComplete s.tb = { s.tb with held := s.tb.refineSum, refineCount := 0, refineSum := 0 } := by
      rw [refinementComplete, if_pos ((refinementDue_iff s.tb).2 ⟨href, hrefine.ge⟩)]
    exact congrArg (fun t => Host.Outcome.next (s.setTb t)) h

end Sys2Proof.Machine
end

section
/-! PROOF. The steps of a rate converter and its entries to LOCKED (chapter 3): O17, O18, O19, O20, O21. -/

namespace Sys2Proof.Machine

/-- Settles O17: LEAVE_DARK acts exactly on its mark, with the conditions of R33 still met. -/
theorem leaveDarkStartsAcquiring : Obligations.LeaveDarkStartsAcquiring := by
  intro s l hdark
  refine ⟨fun hdue hframed hmode => ?_, fun hdue => ?_⟩
  · have h : s.leaveDarkDue l = true := by simp [State.leaveDarkDue, -Fin.getElem_fin, hdue, hdark, hframed, hmode]
    exact congrArg Host.Outcome.next (if_pos h)
  · have h : ¬ s.leaveDarkDue l = true := by simp [State.leaveDarkDue, -Fin.getElem_fin, hdue]
    exact congrArg Host.Outcome.next (if_neg h)

/-! ### The servo -/

theorem clampInt_eq_max_min {lo hi : Int} (h : lo ≤ hi) (x : Int) : clampInt lo hi x = max lo (min hi x) := by
  unfold clampInt; split <;> [skip; split] <;> omega

theorem bandLow_cast {q : Nat} (h : 8388608 ≤ q) : (bandLow q : Int) = max ((q : Int) - 65536) 8388608 := by
  simp only [bandLow, ratioLow]; omega

theorem bandHigh_cast (q : Nat) : (bandHigh q : Int) = min ((q : Int) + 65536) 37748735 := by
  simp only [bandHigh, ratioHigh]; omega

/-- A clamp between natural numbers is one: taking it there and back loses nothing. -/
theorem toNat_clampInt {lo hi : Nat} (h : lo ≤ hi) (x : Int) :
    ((clampInt lo hi x).toNat : Int) = max (lo : Int) (min (hi : Int) x) := by
  rw [clampInt_eq_max_min (by omega)]; omega

/-- The two ratios of a servo update, with Q0 in the supported range (R40). -/
theorem servoConv_ratios (gp gi : Nat) {c : Conv} (hlow : 8388608 ≤ c.q0) (hhigh : c.q0 ≤ 37748735) :
    ((servoConv gp gi c).qApplied : Int) = max 8388608 (min 37748735 (c.qInt + (c.fill - 32) * 2 ^ (24 - gp))) ∧
    ((servoConv gp gi c).qInt : Int) = max (max ((c.q0 : Int) - 65536) 8388608)
      (min (min (c.q0 + 65536) 37748735) (c.qInt + (c.fill - 32) * 2 ^ (24 - gi))) := by
  have hband : bandLow c.q0 ≤ bandHigh c.q0 := by simp only [bandLow, bandHigh, ratioLow, ratioHigh]; omega
  rw [← bandLow_cast hlow, ← bandHigh_cast]
  exact ⟨toNat_clampInt (lo := ratioLow) (hi := ratioHigh) (by decide) _, toNat_clampInt hband _⟩

/-- Settles O20: with Q0 in the supported range the servo's two clamps are those of R40. -/
theorem servoUpdateRule : Obligations.ServoUpdateRule := by
  intro s l cfg hlocked hcfg hmode htrack hlow hhigh
  obtain ⟨hq, hi⟩ := servoConv_ratios cfg.gp cfg.gi hlow hhigh
  refine ⟨_, _, ?_, hq, hi⟩
  have hdue : s.servoDue l = true := by
    simp [State.servoDue, State.modeOf, -Fin.getElem_fin, hlocked, hcfg, hmode, htrack]
  have h : s.servoUpdate l = s.setCv l (servoConv cfg.gp cfg.gi s.cv[l]) := by
    rw [State.servoUpdate, if_pos hdue, hcfg]
  exact congrArg Host.Outcome.next h

/-! ### What an entry to LOCKED tells the lines and the router -/

theorem waitsFor_iff (s : State) (c : ChannelId) (l : LinkId) :
    s.waitsFor c l = true ↔ s.sources[c] = .pending ∧ Safety.primaryLink s c l := by
  cases h : s.active.slotMap[c].primary <;> simp [State.waitsFor, Safety.primaryLink, -Fin.getElem_fin, h]

/-- What a line aims at reads the channel's selected source, the tables and the converters alone (R61). -/
theorem aimsAt_of_selected {s t : State} {c : ChannelId} (hT : t.tables = s.tables) (hC : t.cv = s.cv)
    (hsel : t.selectedOf c = s.selectedOf c) (l : Line) : Safety.AimsAt t c l ↔ Safety.AimsAt s c l := by
  have h1 : t.recordOf c = s.recordOf c := by simp [State.recordOf, State.record, State.active, hT]
  have h2 : t.regionOf c = s.regionOf c := by simp [State.regionOf, State.active, hT]
  have h3 : t.latencyOf c = s.latencyOf c := by simp [State.latencyOf, hsel, hC]
  simp only [Safety.AimsAt, h1, h2, h3]

theorem cutAnswer_of_selected {s t : State} {c : ChannelId} (hT : t.tables = s.tables) (hC : t.cv = s.cv)
    (hsel : t.selectedOf c = s.selectedOf c) {l l' : Line} {b : Bool} (h : Safety.CutAnswer s c l l' b) :
    Safety.CutAnswer t c l l' b := ⟨(aimsAt_of_selected hT hC hsel l').2 h.1, h.2⟩

/-- A CUT for a changed latency followed by one for a changed source is the CUT for the changed source (R67, R70). -/
theorem cutAnswer_trans {s t : State} {c : ChannelId} {l l₁ l₂ : Line} {b : Bool} (h : Safety.CutAnswer s c l l₁ b)
    (h' : Safety.CutAnswer t c l₁ l₂ true) : Safety.CutAnswer t c l l₂ true := by
  obtain ⟨-, h⟩ := h
  obtain ⟨haim, h'⟩ := h'
  refine ⟨haim, ?_⟩
  cases hm : l.move <;> simp only [hm] at h ⊢
  · split at h <;> rw [h] at h' <;> simpa [Safety.falling, Safety.aimed, hm] using h'
  all_goals rw [h] at h'; simpa [Safety.falling, Safety.aimed, hm] using h'

/-- A new latency recomputes the lines of the channels that select the link, and touches nothing else (R71). -/
theorem recomputeLink_lines (s : State) (l : LinkId) (c : ChannelId) :
    s.recomputeLink l = { s with lines := (s.recomputeLink l).lines } ∧
    (s.recomputeLink l).lines[c] =
      if s.selectsLink c l then cutClass s.lines[c] (s.lineTarget c) false else s.lines[c] := by
  have hkeep : ∀ (t : State) (d : ChannelId), t = { s with lines := t.lines } →
      (if t.selectsLink d l then t.recomputeCut d false else t) =
        { s with lines := (if t.selectsLink d l then t.recomputeCut d false else t).lines } := by
    intro t d ht
    split
    · rw [State.recomputeCut]; rw [ht]; rfl
    · exact ht
  refine ⟨forChannels_keeps (P := fun t => t = { s with lines := t.lines }) hkeep rfl, ?_⟩
  obtain ⟨t, ht, hline, hturn⟩ := forChannels_item (view := fun (t : State) (c : ChannelId) => t.lines[c])
    (f := fun t d => if t.selectsLink d l then t.recomputeCut d false else t)
    (P := fun t => t = { s with lines := t.lines })
    (fun t i j hj => by
      split
      · exact State.setLine_get_ne t i j _ hj
      · rfl) hkeep (s := s) rfl c
  have htgt : t.lineTarget c = s.lineTarget c :=
    lineTarget_eq (by rw [ht]) (by rw [ht]) (by rw [ht]) c
  have hsel : t.selectsLink c l = s.selectsLink c l := by rw [ht]; rfl
  refine hturn.trans ?_
  simp only [hsel]
  split
  · rw [State.recomputeCut, State.setLine_get_self, htgt]; exact congrArg (cutClass · _ _) hline
  · exact hline

/-- A report of an entry to LOCKED sends the channels that wait for the link back to PRIMARY, and every line follows its source
(R26, R70). -/
theorem lockReport_reverts (s : State) (l : LinkId) (c : ChannelId) :
    (s.lockReport l).sources[c] = (if s.waitsFor c l then .primary else s.sources[c]) ∧
    Safety.LineFollows s (s.lockReport l) c := by
  obtain ⟨hfollow, t, ht, hsource, hturn⟩ := forChannels_follows
    (f := fun t d => if t.waitsFor d l then t.changeSource d .primary else t)
    (fun t d => by
      split
      · exact .inr ⟨.primary, rfl⟩
      · exact .inl rfl) s c
  refine ⟨hturn.trans ?_, hfollow⟩
  have hactive : t.active = s.active := by rw [ht]; rfl
  have hwaits : t.waitsFor c l = s.waitsFor c l := by rw [State.waitsFor, State.waitsFor, hsource, hactive]
  simp only [hwaits]
  split
  · simp [changeSource_sources]
  · exact hsource

/-- The converter that an entry to LOCKED leaves (R35, R45, R48, R49). -/
def lockedConv (mode : LinkMode) (x : Conv) : Conv :=
  { x with state := .locked, track := 0, g := 64, lc := latencyFor mode x.qInt }

theorem enterLocked_eq (s : State) (l : LinkId) (x : Conv) :
    s.enterLocked l x =
      (if (lockedConv (s.modeOf l) x).lc = x.lc then s.setCv l (lockedConv (s.modeOf l) x)
        else (s.setCv l (lockedConv (s.modeOf l) x)).recomputeLink l).lockReport l := rfl

/-- An entry to LOCKED: the converter stands locked with its new latency, and lines and sources answer it (R26, R49, R71). -/
theorem enterLocked_lockEntry (s : State) (l : LinkId) (x : Conv) (hlc : x.lc = s.cv[l].lc) :
    Safety.LockEntry s (s.enterLocked l x) l (lockedConv (s.modeOf l) x) := by
  rw [enterLocked_eq, hlc]
  generalize lockedConv (s.modeOf l) x = v
  obtain ⟨u, hu, huline, ht⟩ : ∃ u : State, u = { s.setCv l v with lines := u.lines } ∧
      (∀ c : ChannelId, (v.lc ≠ s.cv[l].lc ∧ s.selectsLink c l = true →
          Safety.CutAnswer u c s.lines[c] u.lines[c] false) ∧
        (¬ (v.lc ≠ s.cv[l].lc ∧ s.selectsLink c l = true) → u.lines[c] = s.lines[c])) ∧
      (if v.lc = s.cv[l].lc then s.setCv l v else (s.setCv l v).recomputeLink l) = u := by
    split
    · next he => exact ⟨s.setCv l v, rfl, fun c => ⟨fun hne => absurd he hne.1, fun _ => rfl⟩, rfl⟩
    · next hne =>
      have hframe := (recomputeLink_lines (s.setCv l v) l 0).1
      refine ⟨_, hframe, fun c => ⟨fun hsel => ?_, fun hsel => ?_⟩, rfl⟩
      · rw [(recomputeLink_lines (s.setCv l v) l c).2, if_pos (show (s.setCv l v).selectsLink c l = true from hsel.2)]
        exact cutAnswer_of_selected (s := s.setCv l v) (by rw [hframe]) (by rw [hframe])
          (by simp only [State.selectedOf, State.active]; rw [hframe]) (cutClass_answers (s.setCv l v) c s.lines[c] false)
      · rw [(recomputeLink_lines (s.setCv l v) l c).2, if_neg (show ¬ (s.setCv l v).selectsLink c l = true from fun h => hsel ⟨hne, h⟩)]; rfl
  rw [ht]
  have hcv : (u.lockReport l).cv = s.cv.set l.val v := by rw [lockReport_frame]; rw [hu]; rfl
  have htables : (u.lockReport l).tables = u.tables := by rw [lockReport_frame]
  have hucv : (u.lockReport l).cv = u.cv := by rw [lockReport_frame]
  have husel : ∀ c, u.selectedOf c = s.selectedOf c := fun c => by rw [hu]; rfl
  have huwaits : ∀ c, u.waitsFor c l = s.waitsFor c l := fun c => by rw [hu]; rfl
  have husources : u.sources = s.sources := by rw [hu]; rfl
  refine ⟨?_, fun k hk => ?_, fun c hpend hlink => ?_, fun c hstay => ?_, fun c => ?_, ?_⟩
  · simp [hcv]
  · have : l.val ≠ k.val := fun e => hk (Fin.ext e.symm)
    simp [hcv, this]
  · rw [(lockReport_reverts u l c).1, huwaits, if_pos ((waitsFor_iff s c l).2 ⟨hpend, hlink⟩)]
  · rw [(lockReport_reverts u l c).1, huwaits, if_neg (fun h => hstay ((waitsFor_iff s c l).1 h)), husources]
  · obtain ⟨hmoved, hstood⟩ := (lockReport_reverts u l c).2
    rw [husel] at hmoved hstood
    refine ⟨fun hne => ?_, fun heq hnew hon => ?_, fun heq hold => ?_⟩
    · by_cases hcut : v.lc ≠ s.cv[l].lc ∧ s.selectsLink c l = true
      · exact cutAnswer_trans ((huline c).1 hcut) (hmoved hne)
      · have h := hmoved hne
        rwa [(huline c).2 hcut] at h
    · rw [hstood heq]
      exact cutAnswer_of_selected htables hucv (heq.trans (husel c).symm)
        ((huline c).1 ⟨hnew, (selectsLink_iff s c l).2 hon⟩)
    · rw [hstood heq]
      refine (huline c).2 (fun hcut => ?_)
      rcases hold with hsame | hoff
      · exact hcut.1 hsame
      · exact hoff ((selectsLink_iff s c l).1 hcut.2)
  · rw [lockReport_frame]
    generalize (u.lockReport l).sources = a
    generalize (u.lockReport l).lines = b
    rw [hu]; rfl

/-! ### The filter set that a measurement chooses -/

/-- One entry of SET_SELECT against the best so far (R52). -/
def betterEntry (q : Nat) (best : Option SelectEntry) (e : Option SelectEntry) : Option SelectEntry :=
  match e, best with
  | some x, some b => if x.bound ≤ q && decide (b.bound ≤ x.bound) then some x else best
  | some x, none => if x.bound ≤ q then some x else none
  | none, _ => best

theorem chooseSet_eq (sel : Vector (Option SelectEntry) 4) (q : Nat) :
    chooseSet sel q = match sel.toList.foldl (betterEntry q) none with
      | some b => b.set
      | none => 0 := rfl

/-- The best entry so far of those seen: none exactly when no bound is met, else one with the largest bound that is. -/
def BestOf (q : Nat) (seen : Option SelectEntry → Prop) (best : Option SelectEntry) : Prop :=
  match best with
  | none => ∀ x, seen (some x) → q < x.bound
  | some b => seen (some b) ∧ b.bound ≤ q ∧ ∀ x, seen (some x) → x.bound ≤ q → x.bound ≤ b.bound

theorem bestOf_betterEntry {q : Nat} {seen : Option SelectEntry → Prop} {best : Option SelectEntry}
    (h : BestOf q seen best) (e : Option SelectEntry) : BestOf q (fun x => seen x ∨ x = e) (betterEntry q best e) := by
  cases e with
  | none => cases best with
    | none => simpa [BestOf, betterEntry] using h
    | some b => simpa [BestOf, betterEntry] using h
  | some x => cases best with
    | none =>
      by_cases hx : x.bound ≤ q
      · simp only [betterEntry, if_pos hx]
        refine ⟨.inr rfl, hx, ?_⟩
        rintro y (hy | hy) hle
        · exact absurd (h y hy) (Nat.not_lt.2 hle)
        · cases hy; exact le_rfl
      · simp only [betterEntry, if_neg hx]
        rintro y (hy | hy)
        · exact h y hy
        · cases hy; exact Nat.lt_of_not_le hx
    | some b =>
      obtain ⟨hseen, hb, hbest⟩ := h
      by_cases hx : x.bound ≤ q ∧ b.bound ≤ x.bound
      · have : betterEntry q (some b) (some x) = some x := by simp [betterEntry, hx]
        rw [this]
        refine ⟨.inr rfl, hx.1, ?_⟩
        rintro y (hy | hy) hle
        · exact (hbest y hy hle).trans hx.2
        · cases hy; exact le_rfl
      · have : betterEntry q (some b) (some x) = some b := by simp [betterEntry]; omega
        rw [this]
        refine ⟨.inl hseen, hb, ?_⟩
        rintro y (hy | hy) hle
        · exact hbest y hy hle
        · cases hy; omega

theorem bestOf_foldl {q : Nat} : ∀ (l : List (Option SelectEntry)) {seen : Option SelectEntry → Prop}
    {best : Option SelectEntry}, BestOf q seen best →
    BestOf q (fun x => seen x ∨ x ∈ l) (l.foldl (betterEntry q) best)
  | [], _, _, h => by simpa using h
  | e :: l, _, _, h => by
    have := bestOf_foldl l (bestOf_betterEntry h e)
    simpa [or_assoc] using this

/-- The chosen set: 0 when no bound is met, and the set of an entry whose bound is the largest met otherwise (R52). -/
theorem chooseSet_spec (sel : Vector (Option SelectEntry) 4) (q : Nat) :
    (chooseSet sel q = 0 ∧ ∀ x, some x ∈ sel.toList → q < x.bound) ∨
    ∃ b, some b ∈ sel.toList ∧ chooseSet sel q = b.set ∧ b.bound ≤ q ∧
      ∀ x, some x ∈ sel.toList → x.bound ≤ q → x.bound ≤ b.bound := by
  have h : BestOf q (fun x => False ∨ x ∈ sel.toList) (sel.toList.foldl (betterEntry q) none) :=
    bestOf_foldl _ (fun _ hx => hx.elim)
  rw [chooseSet_eq]
  generalize sel.toList.foldl (betterEntry q) none = best at h
  simp only [false_or] at h
  cases best with
  | none => exact .inl ⟨rfl, h⟩
  | some b => exact .inr ⟨b, h.1, rfl, h.2⟩

theorem mem_toList_iff {α : Type} {n : Nat} (v : Vector α n) (x : α) : x ∈ v.toList ↔ ∃ i : Fin n, v[i] = x := by
  rw [Vector.mem_toList_iff, Vector.mem_iff_getElem]
  exact ⟨fun ⟨i, hi, h⟩ => ⟨⟨i, hi⟩, h⟩, fun ⟨i, h⟩ => ⟨i.val, i.isLt, h⟩⟩

/-! ### The measurements that end -/

theorem supported_iff (q : Nat) : supported q = true ↔ 8388608 ≤ q ∧ q ≤ 37748735 :=
  decide_eq_true_iff

/-- A measurement in CONVERT that ends in range locks, with the latency of R49. -/
theorem endMeasurement_locks {s : State} {l : LinkId} (hmode : s.modeOf l = .convert)
    (hlow : 8388608 ≤ s.cv[l].n * 16384) (hhigh : s.cv[l].n * 16384 ≤ 37748735) :
    Safety.LockEntry s (s.endMeasurement l) l { s.cv[l] with
      state := .locked, q0 := s.cv[l].n * 16384, qInt := s.cv[l].n * 16384, qApplied := s.cv[l].n * 16384,
      filter := some (chooseSet s.tables.setSelect (s.cv[l].n * 16384)), rInt := s.cv[l].w - 32#32, rFrac := 0#24,
      track := 0, g := 64,
      lc := (32 * 16777216 + (s.cv[l].n * 16384 - 1)) / (s.cv[l].n * 16384) + 2 } := by
  have h : s.endMeasurement l = s.enterLocked l (lockConvert s.tables.setSelect s.cv[l]) :=
    if_pos ((supported_iff _).2 ⟨hlow, hhigh⟩)
  have hlock := enterLocked_lockEntry s l (lockConvert s.tables.setSelect s.cv[l]) rfl
  rw [← h, hmode] at hlock
  exact hlock

theorem endMeasurement_unsupported {s : State} {l : LinkId}
    (hout : s.cv[l].n * 16384 < 8388608 ∨ 37748735 < s.cv[l].n * 16384) :
    s.endMeasurement l = s.setCv l { s.cv[l] with state := .unsupported, q0 := s.cv[l].n * 16384, m := 0, n := 0 } :=
  if_neg (fun h => by rw [supported_iff] at h; omega)

theorem acquisitionEnd_due {s : State} {l : LinkId} (hmode : s.modeOf l = .convert) (hm : s.cv[l].m = 1024)
    (hstate : s.cv[l].state = .acquiring) : s.acquisitionEnd l = s.endMeasurement l :=
  if_pos (by simp [State.acquisitionEndDue, -Fin.getElem_fin, hmode, hm, hstate])

theorem unsupportedBlockEnd_due {s : State} {l : LinkId} (hm : s.cv[l].m = 1024)
    (hstate : s.cv[l].state = .unsupported) : s.unsupportedBlockEnd l = s.endMeasurement l :=
  if_pos (by simp [State.unsupportedEndDue, -Fin.getElem_fin, hm, hstate])

/-- Settles O18: a measurement that ends locks or starts again by the range of its ratio, and R52 chooses the set. -/
theorem measurementEnds : Obligations.MeasurementEnds := by
  refine ⟨fun s l hmode hm hlow hhigh => ⟨fun hstate => ?_, fun hstate => ?_⟩,
    fun s l hmode hm hout => ⟨fun hstate => ?_, fun hstate => ?_⟩, fun sel q => ⟨fun hnone => ?_, fun i x hx hle hbest => ?_⟩⟩
  · exact ⟨_, rfl, (acquisitionEnd_due hmode hm hstate).symm ▸ endMeasurement_locks hmode hlow hhigh⟩
  · exact ⟨_, rfl, (unsupportedBlockEnd_due hm hstate).symm ▸ endMeasurement_locks hmode hlow hhigh⟩
  · exact congrArg Host.Outcome.next
      ((acquisitionEnd_due hmode hm hstate).trans (endMeasurement_unsupported hout))
  · have hstay : ({ s.cv[l] with state := .unsupported, q0 := s.cv[l].n * 16384, m := 0, n := 0 } : Conv) =
        { s.cv[l] with q0 := s.cv[l].n * 16384, m := 0, n := 0 } := by rw [← hstate]
    rw [← hstay]
    exact congrArg Host.Outcome.next
      ((unsupportedBlockEnd_due hm hstate).trans (endMeasurement_unsupported hout))
  · rcases chooseSet_spec sel q with ⟨h, -⟩ | ⟨b, hb, -, hle, -⟩
    · exact h
    · obtain ⟨i, hi⟩ := (mem_toList_iff sel _).1 hb
      exact absurd (hnone i b hi) (Nat.not_lt.2 hle)
  · have hmem : some x ∈ sel.toList := (mem_toList_iff sel _).2 ⟨i, hx⟩
    rcases chooseSet_spec sel q with ⟨-, hnone⟩ | ⟨b, hb, hset, hble, hmax⟩
    · exact absurd (hnone x hmem) (Nat.not_lt.2 hle)
    · obtain ⟨j, hj⟩ := (mem_toList_iff sel _).1 hb
      by_cases hij : j = i
      · rw [hij, hx] at hj
        rw [hset, Option.some.inj hj]
      · exact absurd (hbest j b hij hj hble) (Nat.not_lt.2 (hmax x hmem hle))

/-- Settles O19: DIRECT mode locks at exactly 1.0 with latency 6 (R48, R49). -/
theorem directAcquisitionLocks : Obligations.DirectAcquisitionLocks := by
  intro s l hmode hstate
  refine ⟨fun hn => ⟨_, rfl, ?_⟩, fun hn => ?_⟩
  · have h : s.directAcquisitionEnd l = s.enterLocked l (lockDirect s.cv[l]) :=
      if_pos (by simpa [State.directEndDue, -Fin.getElem_fin, hmode, hstate] using hn)
    have hlock := enterLocked_lockEntry s l (lockDirect s.cv[l]) rfl
    rw [hmode] at hlock
    rw [h]
    exact hlock
  · have h : ¬ s.directEndDue l = true := by simpa [State.directEndDue, -Fin.getElem_fin, hmode, hstate] using hn
    exact congrArg Host.Outcome.next (if_neg h)

/-! ### The splice -/

/-- A count that saturates, whatever it held: one more, held at the top. -/
theorem countUp_eq (top n : Nat) : countUp top n = min top (n + 1) := by
  unfold countUp; split <;> omega

theorem countUpBy_eq (top k n : Nat) : countUpBy top k n = min top (n + k) := by
  unfold countUpBy; split <;> omega

/-- Where the read position is placed: 32 behind W, or 4 in DIRECT (R35, R48). -/
theorem targetFill_eq (mode : LinkMode) : targetFill mode = BitVec.ofNat 32 (if mode = .direct then 4 else 32) := by
  cases mode <;> rfl

/-- The fill at a re-placed read position is its target. -/
theorem fillOf_replaceRead (mode : LinkMode) (c : Conv) :
    fillOf (replaceRead mode c) = ((if mode = .direct then 4 else 32 : Nat) : Int) := by
  have h : ∀ w x : BitVec 32, w - (w - x) = x := fun w x => by bv_omega
  simp only [fillOf, replaceRead, h]
  cases mode <;> rfl

/-- The outputs of a frame: each value saturated and under the fader, each saturated one counted (R38, R39). -/
theorem produce_eq (f : Cells Int) (mode : LinkMode) (c : Conv) :
    produce f mode c =
      { c with last := (Vector.ofFn fun slot => slotValue f mode c slot).map fun x => fade (saturate24 x) c.g,
               saturations := min 65535 (c.saturations +
                 ((Vector.ofFn fun slot => slotValue f mode c slot).toList.filter outside24).length) } := by
  simp only [produce, countUpBy_eq]; rfl

/-- Settles O21: the jump sends its frame from the re-placed read position, and the end of RISE enters LOCKED (R43, R45). -/
theorem spliceJumpAndEnd : Obligations.SpliceJumpAndEnd := by
  intro s l hstate
  refine ⟨fun hdue => ?_, fun hrise hcount => ⟨_, rfl, ?_⟩⟩
  · have h : s.spliceJump l = s.setCv l (spliceJumpConv s.tables.filters (s.modeOf l) s.cv[l]) :=
      if_pos (by simp [State.spliceJumpDue, -Fin.getElem_fin, hstate, hdue])
    refine congrArg Host.Outcome.next (h.trans (congrArg (s.setCv l) ?_))
    have hplaced : ({ replaceRead (s.modeOf l) s.cv[l] with
          fill := fillOf (replaceRead (s.modeOf l) s.cv[l]), splice := .rise, spliceCount := 1, g := 1, jumpDue := false } : Conv) =
        { s.cv[l] with
          rInt := s.cv[l].w - BitVec.ofNat 32 (if s.modeOf l = .direct then 4 else 32), rFrac := 0#24,
          qApplied := s.cv[l].qInt, fill := ((if s.modeOf l = .direct then 4 else 32 : Nat) : Int), splice := .rise,
          spliceCount := 1, g := 1, jumpDue := false } := by
      rw [fillOf_replaceRead, replaceRead, targetFill_eq]
    simp only [spliceJumpConv]
    rw [hplaced, produce_eq]
  · have h : s.spliceEnd l = s.enterLocked l (countSlip s.tb.slice s.cv[l]) :=
      if_pos (by simp [State.spliceEndDue, -Fin.getElem_fin, hstate, hrise, hcount])
    have hlock := enterLocked_lockEntry s l (countSlip s.tb.slice s.cv[l]) rfl
    have hlc : latencyFor (s.modeOf l) s.cv[l].qInt =
        if s.modeOf l = .direct then 6 else (32 * 16777216 + (s.cv[l].qInt - 1)) / s.cv[l].qInt + 2 := by
      cases s.modeOf l <;> rfl
    rw [← h] at hlock
    rw [← hlc, ← countUp_eq]
    exact hlock

end Sys2Proof.Machine
end

section
/-! PROOF. The steps of a line, of a gain stage and of the executor that act alone: O23, O24, O30, O31, O33. -/

namespace Sys2Proof.Machine

/-! ### Line moves (section 4.4) -/

theorem recordOf_eq {s : State} {c : ChannelId} {p : ProgId} (h : programmeOf s.active c = some p) :
    s.recordOf c = s.record p := by simp [State.recordOf, h]

/-- Settles O23: the three steps of a line act on their own marks and leave every other line (R64, R66, R69). -/
theorem lineMoveSteps : Obligations.LineMoveSteps := by
  refine ⟨fun s c p r hslew hprog hrec => ?_, fun s c =>
    ⟨fun hfall hdue => ?_, fun hrise hg heq => ?_, fun hrise hg hne => ?_, fun hidle => ⟨?_, ?_⟩⟩⟩
  · have hdue : s.slewStepDue c = decide (r.slewInterval ≤ s.lines[c].slew) := by
      simp [State.slewStepDue, -Fin.getElem_fin, hslew, recordOf_eq hprog, hrec]
    refine ⟨fun hcount => ?_, fun hcount => ?_⟩
    · exact congrArg Host.Outcome.next (if_pos (by rw [hdue]; exact decide_eq_true hcount))
    · exact congrArg Host.Outcome.next (if_neg (by rw [hdue, decide_eq_true_iff]; exact Nat.not_le.2 hcount))
  · exact congrArg Host.Outcome.next (if_pos (by simp [cutJumpDue, -Fin.getElem_fin, hfall, hdue]))
  · have h : cutEndLine s.lines[c] = { s.lines[c] with move := .idle } := if_pos heq
    exact congrArg Host.Outcome.next
      ((if_pos (by simp [cutEndDue, -Fin.getElem_fin, hrise, hg])).trans (congrArg (s.setLine c) h))
  · have h : cutEndLine s.lines[c] = { s.lines[c] with move := .slew, slew := 0 } := if_neg hne
    exact congrArg Host.Outcome.next
      ((if_pos (by simp [cutEndDue, -Fin.getElem_fin, hrise, hg])).trans (congrArg (s.setLine c) h))
  · exact congrArg Host.Outcome.next (if_neg (by simp [cutJumpDue, -Fin.getElem_fin, hidle]))
  · exact congrArg Host.Outcome.next (if_neg (by simp [cutEndDue, -Fin.getElem_fin, hidle]))

/-! ### The gain schedule queue and the ramp (sections 6.2, 6.3) -/

/-- The service takes the entries at the head that have been reached, and the last of them gives G_tgt (R103). -/
theorem serveEntries_eq (r : ProgRecord) (hfc : Instant) : ∀ (q : List GainEntry) (tgt : Int),
    serveEntries r hfc q tgt =
      (q.drop (q.takeWhile fun e => instantReached hfc e.due).length,
       (((q.takeWhile fun e => instantReached hfc e.due).getLast?).map fun e => clampGain r e.target).getD tgt)
  | [], tgt => rfl
  | e :: q, tgt => by
    unfold serveEntries
    by_cases h : instantReached hfc e.due = true
    · rw [if_pos h, serveEntries_eq r hfc q, List.takeWhile_cons_of_pos (by exact h), List.getLast?_cons]
      cases (q.takeWhile fun e => instantReached hfc e.due).getLast? <;> rfl
    · rw [if_neg h, List.takeWhile_cons_of_neg (by exact h)]; rfl

/-- Settles O24: the queue service and the ramp step of one programme (R103, R105, R107). -/
theorem queueServiceAndRampStep : Obligations.QueueServiceAndRampStep := by
  refine ⟨fun s p => ⟨fun r hrec hdue => ?_, fun hnone => ?_⟩, fun s p => ⟨fun r hrec hdue => ?_, fun hnone => ?_⟩,
    fun g => rfl⟩
  · have hserve : s.queueService p =
        s.setGain p (countRamp r (serveGain r s.tb.hfc { s.gain[p] with serviceDue := false })) := by
      simp only [State.queueService, hrec]
      exact if_pos hdue
    refine congrArg Host.Outcome.next (hserve.trans (congrArg (s.setGain p) ?_))
    simp only [serveGain, serveEntries_eq, countRamp, instantReached, clampGain]
    cases (s.gain[p].queue.takeWhile fun e => decide ((s.tb.hfc - e.due).toNat < 2147483648)).getLast? <;>
      simp only [Option.map_none, Option.map_some, Option.getD_none, Option.getD_some] <;>
      split <;> simp_all
  · have h : s.queueService p = s := by
      unfold State.queueService
      rcases hnone with hnone | hnone
      · rw [hnone]
      · split
        · rfl
        · exact if_neg (by rw [hnone]; exact Bool.false_ne_true)
    exact congrArg Host.Outcome.next h
  · exact congrArg Host.Outcome.next (if_pos (by simp [State.rampTurn, State.present, -Fin.getElem_fin, hrec, hdue]))
  · have h : ¬ s.rampTurn p = true := by
      rcases hnone with hnone | hnone <;> simp [State.rampTurn, State.present, -Fin.getElem_fin, hnone]
    exact congrArg Host.Outcome.next (if_neg h)

/-! ### Replies (section 9.4) -/

/-- Settles O31: where the reply of an executed command goes, and a held one (R158, R159). -/
theorem replyPlacements : Obligations.ReplyPlacements := by
  refine ⟨fun s m payload => ⟨fun hall => if_pos hall, fun huni hroom => ?_, fun huni hfull => ?_⟩,
    fun s m hturn hheld => ?_⟩
  · rw [State.answer, if_neg huni, Port.placeReply, if_pos hroom]; rfl
  · rw [State.answer, if_neg huni, Port.placeReply, if_neg (Nat.not_lt.2 hfull)]; rfl
  · have h : s.heldReplyPlaced =
        { s with frame := { s.frame with executorTurn := false },
                 port := if s.port.replies.length < 8 then
                     { s.port with replies := s.port.replies ++ [m], holding := none } else s.port } := by
      rw [State.heldReplyPlaced, if_pos (by simp [State.heldTurn, hturn, hheld])]
      simp only [hheld]
    refine ⟨fun hroom => ?_, fun hfull => ?_⟩
    · rw [if_pos hroom] at h; exact congrArg Host.Outcome.next h
    · rw [if_neg (Nat.not_lt.2 hfull)] at h; exact congrArg Host.Outcome.next h

/-! ### Refusals (R162, R165) -/

/-- A command's answer that is OK, or leaves the state `s` that it was given. -/
def Answered (s : State) (x : State × List Byte) : Prop := x.2.head? ≠ some 0#8 → x.1 = s

@[simp] theorem answered_refuse (s : State) (st : Status) : Answered s (s.refuse st) := fun _ => rfl

@[simp] theorem answered_okReply (s t : State) (results : List Byte) : Answered s (t, okReply results) :=
  fun h => absurd rfl h

@[simp] theorem answered_same (s : State) (reply : List Byte) : Answered s (s, reply) := fun _ => rfl

theorem answered_putRecords (s : State) (code : Nat) (name : TableName) (first : Nat) (faulty : Option Nat)
    (rs : List (List Byte)) : Answered s (s.putRecords code name first faulty rs) := by
  unfold State.putRecords writeReply
  repeat' split
  all_goals simp

/-- The reads and the identity answer OK or leave the state. -/
theorem answered_reads (s : State) (bs : List Byte) :
    Answered s (s.identify bs) ∧ Answered s (s.readStatus bs) ∧ Answered s (s.readLink bs) ∧
    Answered s (s.readProgramme bs) ∧ Answered s (s.readSlice bs) ∧ Answered s (s.readEntries bs) ∧
    Answered s (s.readContexts bs) := by
  simp only [State.identify, State.readStatus, State.readLink, State.readProgramme, State.readSlice, State.readEntries, State.readContexts]
  refine ⟨?_, ?_, ?_, ?_, ?_, ?_, ?_⟩ <;> repeat' split
  all_goals simp

/-- The table writes and the take answer OK or leave the state. -/
theorem answered_tables (s : State) (bs : List Byte) :
    Answered s (s.writeEntries bs) ∧ Answered s (s.fillEntries bs) ∧ Answered s (s.takeCommandOf bs) ∧
    Answered s (s.cancelTake bs) := by
  simp only [State.writeEntries, State.fillEntries, State.takeCommandOf, State.cancelTake]
  refine ⟨?_, ?_, ?_, ?_⟩ <;> repeat' split
  all_goals simp [answered_putRecords]

/-- The live adjusts and the mutes answer OK or leave the state. -/
theorem answered_adjusts (s : State) (bs : List Byte) :
    Answered s (s.setDelay bs) ∧ Answered s (s.setTarget bs) ∧ Answered s (s.setTrim bs) ∧ Answered s (s.mute bs) ∧
    Answered s (s.unmute bs) := by
  simp only [State.setDelay, State.setTarget, State.setTrim, State.mute, State.unmute, State.adjustReply, State.setCommand]
  refine ⟨?_, ?_, ?_, ?_, ?_⟩ <;> repeat' split
  all_goals simp

/-- The alarm, source, integrator, context and reset commands answer OK or leave the state. -/
theorem answered_others (s : State) (bs : List Byte) :
    Answered s (s.ackAlarm bs) ∧ Answered s (s.enableRule bs) ∧ Answered s (s.disableRule bs) ∧
    Answered s (s.restorePrimary bs) ∧ Answered s (s.resetIntegrator bs) ∧ Answered s (s.loadContexts bs) ∧
    Answered s (s.resetDomains bs) ∧ Answered s (s.unknownCode bs) := by
  simp only [State.ackAlarm, State.enableRule, State.disableRule, State.restorePrimary, State.resetIntegrator, State.loadContexts, State.resetDomains, State.unknownCode, State.enableReply]
  refine ⟨?_, ?_, ?_, ?_, ?_, ?_, ?_, ?_⟩ <;> repeat' split
  all_goals simp

/-- Settles O30: every command checks before it changes anything, so a refusal leaves the state (R162, R165). -/
theorem refusalsChangeNothing : Obligations.RefusalsChangeNothing := by
  intro code s bs
  obtain ⟨h1, h2, h3, h4, h5, h6, h7⟩ := answered_reads s bs
  obtain ⟨h8, h9, h10, h11⟩ := answered_tables s bs
  obtain ⟨h12, h13, h14, h15, h16⟩ := answered_adjusts s bs
  obtain ⟨h17, h18, h19, h20, h21, h22, h23, h24⟩ := answered_others s bs
  refine commandOf_cases (Q := fun f => Answered s (f s bs)) ?_ code
  simp only [List.forall_mem_cons, List.not_mem_nil, false_imp_iff, implies_true, and_true]
  exact ⟨h1, h2, h3, h4, h5, h6, h8, h9, h10, h11, h12, h13, h14, h15, h16, h17, h18, h19, h20, h21, h7, h22, h23, h24⟩

/-! ### Identity (section 10.3) -/

/-- The bytes of a field of 32 bits are its four bytes, most significant first (R183). -/
theorem beBytes_four (x : BitVec 32) :
    beBytes 4 x.toNat = [x.extractLsb' 24 8, x.extractLsb' 16 8, x.extractLsb' 8 8, x.extractLsb' 0 8] := by
  simp only [beBytes, List.cons.injEq, and_true]
  refine ⟨?_, ?_, ?_, ?_⟩ <;>
    (apply BitVec.eq_of_toNat_eq; simp [BitVec.extractLsb'_toNat, Nat.shiftRight_eq_div_pow])

/-- A command whose head is ready runs on the state without it, and its answer is placed (R158). -/
theorem exec_of_ready {s : State} {m : Message} {rest : List Message} {code : Byte} (h : Safety.Ready s m rest code)
    {serves : Byte → Bool} (hs : serves code = true) {f : State → List Byte → State × List Byte} {t : State}
    {reply : List Byte} (hf : f (s.takeCommand rest) m.payload = (t, reply)) :
    s.execute serves f = t.answer m reply := by
  rw [execute_ready h hs, hf]

/-- Settles O33: IDENTIFY answers the identity, and an unknown code BAD_CODE (R165, R170). -/
theorem identifyAndUnknownCode : Obligations.IdentifyAndUnknownCode := by
  refine ⟨fun s m rest h => ⟨fun hempty => ?_, fun hne => ?_⟩, fun s m rest h hcode => ?_⟩
  · refine congrArg Host.Outcome.next (exec_of_ready h rfl ?_)
    have hreply : (s.takeCommand rest).identity =
        [0x0C#8, 0x84#8, 1#8, BitVec.ofNat 8 s.port.addr.toNat, BitVec.ofNat 8 s.port.mlk.val,
          (if s.tb.rate96 then 1#8 else 0#8), (if s.port.cause = .powerOn then 0#8 else 1#8)] ++
        (match s.port.domain with
          | none => [0#8, 0#8, 0#8, 0#8, 0#8]
          | some d => [d.1, d.2.extractLsb' 24 8, d.2.extractLsb' 16 8, d.2.extractLsb' 8 8, d.2.extractLsb' 0 8]) ++
        beBytes 4 s.tb.hfc.toNat := by
      have hrate : beBytes 1 (flag s.tb.rate96) = [if s.tb.rate96 then 1#8 else 0#8] := by cases s.tb.rate96 <;> rfl
      have hcause : beBytes 1 (causeCode s.port.cause) = [if s.port.cause = .powerOn then 0#8 else 1#8] := by
        cases s.port.cause <;> rfl
      have hdomain : domainRecord s.port.domain = match s.port.domain with
          | none => [0#8, 0#8, 0#8, 0#8, 0#8]
          | some d => [d.1, d.2.extractLsb' 24 8, d.2.extractLsb' 16 8, d.2.extractLsb' 8 8, d.2.extractLsb' 0 8] := by
        cases s.port.domain with
        | none => rfl
        | some d => simp only [domainRecord, beBytes_four]
      rw [← hdomain]
      simp only [State.identity, State.takeCommand, hrate, hcause]
      simp [beBytes, partCode, revision]
    rw [hempty, State.identify, if_neg (by simp), hreply, beBytes_four]
    rfl
  · refine congrArg Host.Outcome.next (exec_of_ready h rfl ?_)
    exact if_pos (by simpa using hne)
  · refine congrArg Host.Outcome.next (exec_of_ready h ?_ rfl)
    simpa [isUnknown, commandCodes] using hcode

end Sys2Proof.Machine
end

section
/-! PROOF. The management port's input (sections 9.1 to 9.3) and the link receivers (section 2.2): O12 to O16, O47. -/

namespace Sys2Proof.Machine

/-! ### Instants and the check byte -/

/-- Settles O47: the reached test over the wrap of the HFC (R4), and the check byte (R151). -/
theorem reachedTestAndCheckByte : Obligations.ReachedTestAndCheckByte := by
  refine ⟨⟨fun hfc t hlo hhi => ⟨fun k hk => ?_, ?_⟩, rfl, rfl⟩, fun bs => ?_, rfl, rfl⟩
  · have hahead : (hfc + BitVec.ofNat 32 k - t).toNat = 2 ^ 32 - ((t - hfc).toNat - k) := by bv_omega
    simp only [instantReached, hahead, decide_eq_false_iff_not]
    omega
  · have hat : (hfc + BitVec.ofNat 32 (t - hfc).toNat - t).toNat = 0 := by bv_omega
    simp only [instantReached, hat]
    rfl
  · have hself : ∀ r : Byte, crcByte r r = 0#8 := fun r => by simp only [crcByte, BitVec.xor_self]; rfl
    simp only [crc, List.foldl_append, List.foldl_cons, List.foldl_nil, hself]

/-! ### A message and its bytes -/

theorem crc_append_byte (bs : List Byte) (b : Byte) : crc (bs ++ [b]) = crcByte (crc bs) b := by
  simp [crc]

/-- A message and its check byte leave the register at 0 (R151). -/
theorem crc_messageBytes (m : Message) : crc (messageBytes m) = 0#8 :=
  reachedTestAndCheckByte.2.1 (coveredBytes m)

theorem firstByte_toNat (addr : BitVec 6) (kind : MsgKind) :
    (firstByte addr kind).toNat = addr.toNat * 4 + msgKindCode kind := by
  have haddr := addr.isLt
  have hkind : msgKindCode kind ≤ 2 := by cases kind <;> decide
  simp only [firstByte, BitVec.toNat_ofNat]
  omega

theorem msgKindOf_msgKindCode (kind : MsgKind) : msgKindOf (msgKindCode kind) = kind := by cases kind <;> rfl

theorem msgKindCode_lt (kind : MsgKind) : msgKindCode kind < 3 := by cases kind <;> decide

theorem messageBytes_eq (m : Message) :
    messageBytes m = firstByte m.addr m.kind :: m.tag :: m.code :: BitVec.ofNat 8 m.payload.length ::
      (m.payload ++ [crc (coveredBytes m)]) := by simp [messageBytes, coveredBytes]

/-- A message read back from its bytes (section 9.1). -/
theorem readMessage_messageBytes {m : Message} (h : m.payload.length ≤ 248) : readMessage (messageBytes m) = m := by
  have hkind := msgKindCode_lt m.kind
  have hlength : m.payload.length % 256 = m.payload.length := by omega
  rw [messageBytes_eq]
  simp only [readMessage, byteAt, List.getD_cons_zero, List.getD_cons_succ, firstByte_toNat, List.drop_succ_cons,
    List.drop_zero, BitVec.toNat_ofNat]
  rw [show (m.addr.toNat * 4 + msgKindCode m.kind) / 4 = m.addr.toNat by omega,
    show (m.addr.toNat * 4 + msgKindCode m.kind) % 4 = msgKindCode m.kind by omega, msgKindOf_msgKindCode,
    BitVec.ofNat_toNat, BitVec.setWidth_eq, show 2 ^ 8 = 256 from rfl, hlength, List.take_left]

/-! ### Routing (section 9.3) -/

theorem joinCommand_room {p : Port} {m : Message} (h : p.commands.length < 4) :
    p.joinCommand m = { p with commands := p.commands ++ [m] } := if_pos h

/-- The port with one more command overflow counted (R157). -/
def Port.commandLost (p : Port) : Port :=
  { p with errors := { p.errors with commandOverflow := min 65535 (p.errors.commandOverflow + 1) } }

theorem joinCommand_full {p : Port} {m : Message} (h : 4 ≤ p.commands.length) :
    p.joinCommand m = { p.commandLost with
      replies := if m.addr ≠ 63#6 ∧ p.replies.length < 8 then p.replies ++ [p.replyTo m [statusByte .queueFull]]
                 else p.replies } := by
  rw [Port.joinCommand, if_neg (Nat.not_lt.2 h), bumpCommandOverflow, countUp_eq]; rfl

theorem joinRelay_eq (p : Port) (bs : List Byte) :
    p.joinRelay bs = if p.relay.length < 8 then { p with relay := p.relay ++ [bs] } else
      { p with errors := { p.errors with relayOverflow := min 65535 (p.errors.relayOverflow + 1) } } := by
  rw [Port.joinRelay, bumpRelayOverflow, countUp_eq]

/-- A message is routed as its address and kind say (R155). -/
theorem route_messageBytes (p : Port) {m : Message} (h : m.payload.length ≤ 248) :
    p.route (messageBytes m) =
      if m.kind = .command ∧ m.addr = 63#6 then (p.joinCommand m).joinRelay (messageBytes m)
      else if m.kind = .command ∧ m.addr = p.addr then p.joinCommand m
      else p.joinRelay (messageBytes m) := by
  rw [Port.route, readMessage_messageBytes h]

/-! ### The assembler (section 9.2) -/

/-- The assembler that has collected these bytes of a message. -/
def collected (bs : List Byte) : Assembler :=
  { collecting := true, buffer := bs, expected := if 4 ≤ bs.length then some (byteAt bs 3 + 5) else none, crc := crc bs,
    quiet := 0 }

/-- The bytes are the beginning of a message that is not yet whole. -/
def Partial (bs : List Byte) : Prop := 4 ≤ bs.length → byteAt bs 3 ≤ 248 ∧ bs.length < byteAt bs 3 + 5

theorem growAssembler_collected (bs : List Byte) (b : Byte) : growAssembler (collected bs) b = collected (bs ++ [b]) := by
  have hexpected : (if bs.length = 3 then some (b.toNat + 5) else if 4 ≤ bs.length then some (byteAt bs 3 + 5) else none) =
      if 4 ≤ (bs ++ [b]).length then some (byteAt (bs ++ [b]) 3 + 5) else none := by
    rw [List.length_append, List.length_singleton]
    by_cases h3 : bs.length = 3
    · rw [if_pos h3, if_pos (by omega)]
      simp [byteAt, List.getD_eq_getElem?_getD, h3]
    · by_cases h4 : 4 ≤ bs.length
      · rw [if_neg h3, if_pos h4, if_pos (by omega)]
        simp [byteAt, List.getD_eq_getElem?_getD, List.getElem?_append_left (show 3 < bs.length by omega)]
      · rw [if_neg h3, if_neg h4, if_neg (by omega)]
  simp only [growAssembler, collected, crc_append_byte, Assembler.mk.injEq, true_and, and_true]
  exact hexpected

/-- One more byte of a message that it does not complete. -/
theorem addByte_collected {p : Port} {bs : List Byte} {b : Byte} (hp : p.assembler = collected bs)
    (h : Partial (bs ++ [b])) : p.addByte b = { p with assembler := collected (bs ++ [b]) } := by
  have hlen : ¬ (bs.length = 3 ∧ 248 < b.toNat) := by
    rintro ⟨h3, hb⟩
    have := (h (by simp; omega)).1
    simp [byteAt, List.getD_eq_getElem?_getD, h3] at this
    omega
  have hopen : (collected (bs ++ [b])).expected ≠ some (collected (bs ++ [b])).buffer.length := by
    simp only [collected]
    split
    · next h4 => have := (h h4).2; intro he; rw [Option.some.injEq] at he; omega
    · exact (Option.some_ne_none _).symm
  have hcollecting : (!p.assembler.collecting) = false := by rw [hp]; rfl
  have hbuffer : p.assembler.buffer = bs := by rw [hp]; rfl
  simp only [Port.addByte, hcollecting, hbuffer, if_neg hlen]
  rw [hp, growAssembler_collected, if_neg Bool.false_ne_true, if_neg hopen]

theorem partial_of_append {bs cs : List Byte} (h : Partial (bs ++ cs)) : Partial bs := by
  intro h4
  have hb : byteAt (bs ++ cs) 3 = byteAt bs 3 := by
    simp [byteAt, List.getD_eq_getElem?_getD, List.getElem?_append_left (show 3 < bs.length by omega)]
  have := h (by simp; omega)
  rw [hb, List.length_append] at this
  omega

/-- The bytes of a message that is not yet whole are collected one by one. -/
theorem takeBytes_collected : ∀ (cs : List Byte) {p : Port} {bs : List Byte}, p.assembler = collected bs →
    Partial (bs ++ cs) →
    cs.foldl (fun (q : Port) x => q.takeByte x false) p = { p with assembler := collected (bs ++ cs) }
  | [], p, bs, hp, _ => by rw [List.append_nil, ← hp]; rfl
  | c :: cs, p, bs, hp, h => by
    have h' : Partial (bs ++ [c] ++ cs) := by simpa using h
    rw [List.foldl_cons, show p.takeByte c false = p.addByte c from rfl, addByte_collected hp (partial_of_append h'),
      takeBytes_collected cs rfl h']
    simp

/-- The last byte of a message whose check passes hands the message to routing (R153). -/
theorem addByte_completes {p : Port} {bs : List Byte} {b : Byte} (hp : p.assembler = collected bs)
    (h3 : bs.length ≠ 3) (hwhole : (collected (bs ++ [b])).expected = some (bs.length + 1)) (hcrc : crc (bs ++ [b]) = 0#8) :
    p.addByte b = ({ p with assembler := idleAssembler } : Port).route (bs ++ [b]) := by
  have hcollecting : (!p.assembler.collecting) = false := by rw [hp]; rfl
  have hbuffer : p.assembler.buffer = bs := by rw [hp]; rfl
  have hfull : (collected (bs ++ [b])).expected = some (collected (bs ++ [b])).buffer.length := by
    rw [hwhole, collected, List.length_append, List.length_singleton]
  simp only [Port.addByte, hcollecting, hbuffer, if_neg (fun h : bs.length = 3 ∧ 248 < b.toNat => h3 h.1)]
  rw [hp, growAssembler_collected, if_neg Bool.false_ne_true, if_pos hfull, Port.completeMessage,
    if_pos (show (collected (bs ++ [b])).crc = 0#8 from hcrc)]
  rfl

theorem beginMessage_eq (p : Port) (b : Byte) :
    p.beginMessage b = if b.toNat % 4 = 3 then
        { p with assembler := idleAssembler, errors := { p.errors with header := min 65535 (p.errors.header + 1) } }
      else { p with assembler := { collecting := true, buffer := [b], expected := none, crc := crc [b], quiet := 0 } } := by
  rw [Port.beginMessage, bumpHeader, countUp_eq]; rfl

/-- Where the whole of a message goes when the assembler takes its bytes one by one, the start mark on the first. -/
theorem takeMessage_routes {p : Port} {m : Message} {b : Byte} {bs : List Byte} (hbytes : messageBytes m = b :: bs)
    (hlen : m.payload.length ≤ 248) (hidle : p.assembler = idleAssembler) :
    bs.foldl (fun (q : Port) x => q.takeByte x false) (p.takeByte b true) = p.route (messageBytes m) := by
  have hcons := hbytes
  rw [messageBytes_eq] at hcons
  obtain ⟨rfl, rfl⟩ := List.cons.inj hcons
  have hkind := msgKindCode_lt m.kind
  have hbegin : p.takeByte (firstByte m.addr m.kind) true =
      { p with assembler := collected [firstByte m.addr m.kind] } := by
    have hnot : ¬ p.assembler.collecting = true := by rw [hidle]; exact Bool.false_ne_true
    rw [Port.takeByte, if_pos rfl, if_neg hnot, beginMessage_eq, if_neg (by rw [firstByte_toNat]; omega)]
    rfl
  rw [hbegin, show m.tag :: m.code :: BitVec.ofNat 8 m.payload.length :: (m.payload ++ [crc (coveredBytes m)]) =
      (m.tag :: m.code :: BitVec.ofNat 8 m.payload.length :: m.payload) ++ [crc (coveredBytes m)] by simp,
    List.foldl_append]
  have hb3 : byteAt (coveredBytes m) 3 = m.payload.length := by
    simp only [byteAt, coveredBytes, List.getD_cons_succ, List.getD_cons_zero, BitVec.toNat_ofNat]; omega
  have hcov : (coveredBytes m).length = m.payload.length + 4 := by simp [coveredBytes]
  rw [takeBytes_collected (bs := [firstByte m.addr m.kind]) _ rfl
    (show Partial (coveredBytes m) from fun _ => by rw [hb3, hcov]; omega)]
  change ({ p with assembler := collected (coveredBytes m) } : Port).addByte (crc (coveredBytes m)) = _
  rw [addByte_completes (bs := coveredBytes m) rfl (by rw [hcov]; omega) ?_ (crc_messageBytes m)]
  rotate_left
  · have hb3' : byteAt (coveredBytes m ++ [crc (coveredBytes m)]) 3 = m.payload.length := by
      rw [← hb3]
      simp [byteAt, List.getD_eq_getElem?_getD, List.getElem?_append_left (show 3 < (coveredBytes m).length by omega)]
    rw [collected, if_pos (by rw [List.length_append, hcov]; simp), hb3', hcov]
  · change ({ p with assembler := idleAssembler } : Port).route (messageBytes m) = _
    rw [← hidle]

/-- Settles O15: a whole good message reaches the command queue, and 64 quiet frames discard one in progress (R152 to R155). -/
theorem assemblerMessages : Obligations.AssemblerMessages := by
  refine ⟨fun p m b bs hbytes hlen hkind haddr hone hidle hroom => ?_, fun s => ⟨fun hon hquiet => ?_, fun hno => ?_⟩⟩
  · have h63 : ¬ (m.kind = .command ∧ m.addr = 63#6) := fun h => hone h.2
    rw [takeMessage_routes hbytes hlen hidle, route_messageBytes p hlen, if_neg h63, if_pos ⟨hkind, haddr⟩,
      joinCommand_room hroom]
  · have h : s.port.assemblerTimeout = { s.port with
        assembler := { collecting := false, buffer := [], expected := none, crc := 0#8, quiet := 0 },
        errors := { s.port.errors with timeout := min 65535 (s.port.errors.timeout + 1) } } := by
      rw [Port.assemblerTimeout, if_pos (by simp [timeoutDue, hon, hquiet]), bumpTimeout, countUp_eq]; rfl
    exact congrArg (fun p => Host.Outcome.next (s.setPort p)) h
  · have h : s.port.assemblerTimeout = s.port := by
      refine if_neg (fun h => ?_)
      simp only [timeoutDue, Bool.and_eq_true, decide_eq_true_eq] at h
      rcases hno with hno | hno
      · exact Bool.false_ne_true (hno.symm.trans h.1)
      · omega
    exact congrArg (fun p => Host.Outcome.next (s.setPort p)) h

/-- Settles O16: routing and the refusals of full queues (R155 to R157), and the assembler byte by byte (R152 to R154). -/
theorem messageRouting : Obligations.MessageRouting := by
  refine ⟨fun p m hlen hrelay hcommands => ?_, fun p b => ⟨fun hidle => ⟨?_, ?_⟩, fun hon =>
    ⟨fun hb => ?_, fun hb => ?_, fun h3 hb => ?_, fun h3 hwhole => ⟨fun hcrc => ?_, fun hcrc => ?_⟩⟩⟩⟩
  · have hroute := route_messageBytes p hlen
    refine ⟨fun hkind haddr => ?_, fun hkind haddr hone => ⟨fun hroom => ?_, fun hfull hroom => ?_, fun hfull hroom => ?_⟩,
      fun hother => ?_⟩
    · rw [hroute, if_pos ⟨hkind, haddr⟩]
      by_cases hroom : p.commands.length < 4
      · rw [joinCommand_room hroom, if_pos hroom, joinRelay_eq]
      · rw [joinCommand_full (Nat.not_lt.1 hroom), if_neg hroom, if_neg (fun h => h.1 haddr), joinRelay_eq]; rfl
    · rw [hroute, if_neg (fun h => hone h.2), if_pos ⟨hkind, haddr⟩, joinCommand_room hroom]
    · rw [hroute, if_neg (fun h => hone h.2), if_pos ⟨hkind, haddr⟩, joinCommand_full hfull.ge, if_pos ⟨hone, hroom⟩]; rfl
    · rw [hroute, if_neg (fun h => hone h.2), if_pos ⟨hkind, haddr⟩, joinCommand_full hfull.ge,
        if_neg (fun h => absurd h.2 (Nat.not_lt.2 hroom))]; rfl
    · have h63 : ¬ (m.kind = .command ∧ m.addr = 63#6) := by
        rintro ⟨hk, ha⟩
        rcases hother with h | h
        · exact h hk
        · exact h.1 ha
      have hown : ¬ (m.kind = .command ∧ m.addr = p.addr) := by
        rintro ⟨hk, ha⟩
        rcases hother with h | h
        · exact h hk
        · exact h.2 ha
      rw [hroute, if_neg h63, if_neg hown, joinRelay_eq]
  · rw [show p.takeByte b false = p.addByte b from rfl, Port.addByte, hidle]; rfl
  · rw [Port.takeByte, if_pos rfl, if_neg (by rw [hidle]; exact Bool.false_ne_true), beginMessage_eq]; rfl
  · rw [Port.takeByte, if_pos rfl, if_pos hon, beginMessage_eq, if_neg hb, bumpInterrupted, countUp_eq]
  · rw [Port.takeByte, if_pos rfl, if_pos hon, beginMessage_eq, if_pos hb, bumpInterrupted, countUp_eq]; rfl
  all_goals
    have hcollecting : ¬ (!p.assembler.collecting) = true := by rw [hon]; exact Bool.false_ne_true
    rw [show p.takeByte b false = p.addByte b from rfl, Port.addByte, if_neg hcollecting]
  · rw [if_pos ⟨h3, hb⟩, bumpHeader, countUp_eq]; rfl
  all_goals
    have hfull : (growAssembler p.assembler b).expected = some (growAssembler p.assembler b).buffer.length := by
      simp [growAssembler, h3, hwhole]
    rw [if_neg (fun h => h3 h.1)]
    dsimp only
    rw [if_pos hfull, Port.completeMessage]
  · exact if_pos hcrc
  · exact (if_neg hcrc).trans (by rw [bumpCrc, countUp_eq]; rfl)

/-! ### Frame reports (R18, R154) -/

/-- No timeout is due: nothing is in progress, or fewer than 64 quiet frames have passed (R154). -/
theorem assemblerTimeout_eq_self {p : Port} (h : p.assembler.collecting = false ∨ p.assembler.quiet < 64) :
    p.assemblerTimeout = p := by
  refine if_neg (fun h' => ?_)
  simp only [timeoutDue, Bool.and_eq_true, decide_eq_true_eq] at h'
  rcases h with h | h
  · exact Bool.false_ne_true (h.symm.trans h'.1)
  · omega

/-- With no message in progress a faulted frame and a lost link leave the port (R154). -/
theorem takeReport_idle {p : Port} (h : p.assembler.collecting = false) :
    p.takeReport .faulted = p ∧ p.takeReport .leftFramed = p := by
  simp [Port.takeReport, assemblerTimeout_eq_self (.inl h), h]

/-- A lost link discards a message in progress and counts it (R154). -/
theorem takeReport_leftFramed {p : Port} (h : p.assembler.collecting = true) (hq : p.assembler.quiet < 64) :
    p.takeReport .leftFramed = { p with
      assembler := idleAssembler, errors := { p.errors with linkLoss := min 65535 (p.errors.linkLoss + 1) } } := by
  simp only [Port.takeReport, assemblerTimeout_eq_self (.inr hq), h, bumpLinkLoss, countUp_eq]; rfl

/-- A faulted frame discards a message in progress and counts it (R154). -/
theorem takeReport_faulted {p : Port} (h : p.assembler.collecting = true) (hq : p.assembler.quiet < 64) :
    p.takeReport .faulted = { p with
      assembler := idleAssembler, errors := { p.errors with frameFault := min 65535 (p.errors.frameFault + 1) } } := by
  simp only [Port.takeReport, assemblerTimeout_eq_self (.inr hq), h, bumpFrameFault, countUp_eq]; rfl

/-- A report reaches the port of the management link and no other (R18). -/
theorem report_port (s : State) (l : LinkId) (r : Report) :
    (s.report l r).port = if l = s.port.mlk then s.port.takeReport r else s.port := by
  unfold State.report; split <;> rfl

theorem report_cv (s : State) (l : LinkId) (r : Report) : (s.report l r).cv = s.cv := by rw [report_frame]

theorem report_rx (s : State) (l : LinkId) (r : Report) : (s.report l r).rx = s.rx := by rw [report_frame]

/-! ### A link that leaves FRAMED -/

theorem enterDark_eq (c : Conv) :
    enterDark c = if c.state = .dark then c else { c with
      state := .dark, rampStart := c.last, rampCount := 0, filter := none, leaveDue := false, jumpDue := false } := rfl

/-- A receiver moved as its link leaves FRAMED: the converter enters DARK, and the port is told when it is the management
link's (R13, R16, R33, R154). -/
theorem leftFramed_setRx (s : State) (l : LinkId) (x : Receiver) :
    ((s.setRx l x).leftFramed l).rx = s.rx.set l.val x ∧
    ((s.setRx l x).leftFramed l).cv = s.cv.set l.val (enterDark s.cv[l]) ∧
    ((s.setRx l x).leftFramed l).port = (if l = s.port.mlk then s.port.takeReport .leftFramed else s.port) ∧
    (s.setRx l x).leftFramed l = { s with
      rx := ((s.setRx l x).leftFramed l).rx, cv := ((s.setRx l x).leftFramed l).cv,
      port := ((s.setRx l x).leftFramed l).port } := by
  have hrx : ((s.setRx l x).leftFramed l).rx = s.rx.set l.val x := report_rx _ _ _
  refine ⟨hrx, report_cv _ _ _, report_port _ _ _, ?_⟩
  rw [hrx]
  exact leftFramed_frame (s.setRx l x) l

theorem getElem_set_self {α : Type} {n : Nat} (v : Vector α n) (i : Fin n) (x : α) : (v.set i.val x)[i] = x := by simp

theorem getElem_set_ne {α : Type} {n : Nat} (v : Vector α n) {i k : Fin n} (x : α) (h : k ≠ i) :
    (v.set i.val x)[k] = v[k] := by
  have : i.val ≠ k.val := fun e => h (Fin.ext e.symm)
  simp [this]

/-- Settles O12: the search, the timeout and the word looks of a receiver (R13, R14). -/
theorem receiverSearchSteps : Obligations.ReceiverSearchSteps := by
  intro s l
  refine ⟨fun h => ?_, fun h => ?_, fun h => ?_, fun look hhunt hzero => ⟨fun hfound hpos => ?_, fun hno => ?_⟩,
    fun look hhunt hcand => ⟨fun hpos => ?_, fun hpos hfound hone => ?_, fun hpos hfound htwo => ?_, fun hpos hmiss => ?_⟩⟩
  · have : s.lineTransition l = s.setRx l { s.rx[l] with state := .hunting, candidates := 0, lookAt := 0, watch := 0 } := by
      unfold State.lineTransition; rw [h]
    exact congrArg Host.Outcome.next this
  · have : s.activityTimeout l = s.setRx l { s.rx[l] with state := .silent, watch := 1024 } := by
      unfold State.activityTimeout; dsimp only; rw [h]
    exact congrArg Host.Outcome.next this
  · have hstep : s.activityTimeout l = (s.setRx l { s.rx[l] with state := .silent, watch := 1024 }).leftFramed l := by
      unfold State.activityTimeout; dsimp only; rw [h]
    obtain ⟨hrx, hcv, hport, hframe⟩ := leftFramed_setRx s l { s.rx[l] with state := .silent, watch := 1024 }
    rw [← hstep] at hrx hcv hport hframe
    refine ⟨s.activityTimeout l, rfl, ?_, ?_, fun hmlk => ?_, fun hoff => ?_, fun hmlk hon hq => ?_,
      fun k hk => ⟨?_, ?_⟩, hframe⟩
    · rw [hrx]; exact getElem_set_self _ _ _
    · rw [hcv]; exact getElem_set_self _ _ _
    · rw [hport, if_neg hmlk]
    · rw [hport]; split
      · exact (takeReport_idle hoff).2
      · rfl
    · rw [hport, if_pos hmlk]; exact takeReport_leftFramed hon hq
    · rw [hrx]; exact getElem_set_ne _ _ hk
    · rw [hcv]; exact getElem_set_ne _ _ hk
  all_goals
    have hlook : s.alignmentWordFound l look =
        if s.rx[l].candidates = 0 then s.setRx l (searchWord look s.rx[l]) else s.setRx l (checkWord look s.rx[l]) := by
      unfold State.alignmentWordFound; rw [hhunt]
  · rw [if_pos hzero, searchWord, if_pos (by simp [-Fin.getElem_fin, hfound, hpos])] at hlook
    exact congrArg Host.Outcome.next hlook
  · rw [if_pos hzero, searchWord, if_neg (by
      simp only [Bool.and_eq_true, decide_eq_true_eq]; rintro ⟨hf, hp⟩
      rcases hno with hno | hno
      · exact Bool.false_ne_true (hno.symm.trans hf)
      · omega)] at hlook
    refine congrArg Host.Outcome.next (hlook.trans ?_)
    simp [State.setRx]
  all_goals rw [if_neg (by omega), checkWord] at hlook
  · rw [if_pos hpos] at hlook
    refine congrArg Host.Outcome.next (hlook.trans ?_)
    simp [State.setRx]
  · rw [if_neg (not_not.2 hpos), if_neg (by rw [hfound]; exact Bool.false_ne_true), if_pos (by omega), hone] at hlook
    exact congrArg Host.Outcome.next hlook
  · rw [if_neg (not_not.2 hpos), if_neg (by rw [hfound]; exact Bool.false_ne_true), if_neg (by omega)] at hlook
    exact congrArg Host.Outcome.next hlook
  · rw [if_neg (not_not.2 hpos), if_pos (by rw [hmiss]; rfl)] at hlook
    exact congrArg Host.Outcome.next hlook

end Sys2Proof.Machine
end

section
/-! PROOF. The frames that a receiver takes in FRAMED (section 2.2): O13, O14. -/

namespace Sys2Proof.Machine

/-! ### Arrivals (section 3.2) -/

theorem countsArrivals_iff (mode : LinkMode) (c : Conv) :
    countsArrivals mode c = true ↔
      (c.state = .acquiring ∨ c.state = .unsupported) ∧ (mode = .direct ∨ c.m < 1024) := by
  simp [countsArrivals]

theorem arriveConv_ring (mode : LinkMode) (pastEnd : BitVec 16) (x : SixteenSamples) (c : Conv) (e : Fin 64) :
    (arriveConv mode pastEnd x c).ring[e] = if e.val = c.w.toNat % 64 then x else c.ring[e] := by
  have h : (arriveConv mode pastEnd x c).ring = c.ring.set (c.w.toNat % 64) x (Nat.mod_lt _ (by decide)) := rfl
  rw [h, Fin.getElem_fin, Vector.getElem_set]
  simp only [eq_comm, Fin.getElem_fin]

/-- An arrival is counted in n where a measurement counts arrivals, and nowhere else (R34, R48). -/
theorem arriveConv_n (mode : LinkMode) (pastEnd : BitVec 16) (x : SixteenSamples) (c : Conv) :
    (((c.state = .acquiring ∨ c.state = .unsupported) ∧ (mode = .direct ∨ c.m < 1024)) → c.n < 65535 →
      (arriveConv mode pastEnd x c).n = c.n + 1) ∧
    (¬ ((c.state = .acquiring ∨ c.state = .unsupported) ∧ (mode = .direct ∨ c.m < 1024)) →
      (arriveConv mode pastEnd x c).n = c.n) := by
  rw [← countsArrivals_iff]
  refine ⟨fun h hn => ?_, fun h => if_neg h⟩
  exact (if_pos h).trans (if_pos hn)

/-- A receiver moved, 16 samples handed to its converter and a report to the port: each of the three parts, and nothing else
but the counter of free values (R15, R17, R18, R32). -/
theorem deliver_setRx (s : State) (l : LinkId) (x : Receiver) (samples : SixteenSamples) (r : Report) :
    (((s.setRx l x).arrive l samples).report l r).rx = s.rx.set l.val x ∧
    (((s.setRx l x).arrive l samples).report l r).cv =
      s.cv.set l.val (arriveConv (s.modeOf l) (Config.arrivalCountPastEnd s.free) samples s.cv[l]) ∧
    (((s.setRx l x).arrive l samples).report l r).port = (if l = s.port.mlk then s.port.takeReport r else s.port) ∧
    ((s.setRx l x).arrive l samples).report l r = { s with
      rx := (((s.setRx l x).arrive l samples).report l r).rx, cv := (((s.setRx l x).arrive l samples).report l r).cv,
      port := (((s.setRx l x).arrive l samples).report l r).port,
      free := (((s.setRx l x).arrive l samples).report l r).free } := by
  have hcv : ((s.setRx l x).arrive l samples).cv =
      s.cv.set l.val (arriveConv (s.modeOf l) (Config.arrivalCountPastEnd s.free) samples s.cv[l]) := by
    unfold State.arrive; dsimp only; split <;> rfl
  have harrive := arrive_frame (s.setRx l x) l samples
  generalize (s.setRx l x).arrive l samples = u at harrive hcv ⊢
  have hport : u.port = s.port := by rw [harrive]; rfl
  have hrx : u.rx = s.rx.set l.val x := by rw [harrive]; rfl
  refine ⟨(report_rx u l r).trans hrx, (report_cv u l r).trans hcv, (report_port u l r).trans (by rw [hport]), ?_⟩
  have hreport := report_frame u l r
  generalize u.report l r = t at hreport ⊢
  rw [hreport]
  rw [harrive]
  rfl

/-! ### A good frame -/

theorem takeFrame_good {s : State} {l : LinkId} {f : LinkFrame} (hframed : s.rx[l].state = .framed)
    (halign : f.align = alignmentWord) (hparity : evenParity f = true) : s.takeFrame l f = s.goodFrame l f := by
  unfold State.takeFrame
  rw [hframed]
  exact (if_neg (not_not.2 halign)).trans (if_pos hparity)

theorem deliveredSamples_slot {f : LinkFrame} {i : SlotId} {c : SlotCell} (h : f.slots[i.val]? = some c) :
    (deliveredSamples f)[i] = if c.valid then c.sample else 0#24 := by
  simp [deliveredSamples, h]

/-- The bytes of a good frame reach the assembler in order; a frame without any counts as a quiet one (R18, R152, R154). -/
theorem takeReport_good {p : Port} (f : LinkFrame) (hq : p.assembler.quiet < 64) :
    (f.present0 = true → f.present1 = false →
      p.takeReport (.good (presentBytes f)) = p.takeByte f.byte0 f.start) ∧
    (f.present0 = true → f.present1 = true →
      p.takeReport (.good (presentBytes f)) = (p.takeByte f.byte0 f.start).takeByte f.byte1 false) ∧
    (f.present0 = false → f.present1 = true →
      p.takeReport (.good (presentBytes f)) = p.takeByte f.byte1 false) ∧
    (f.present0 = false → f.present1 = false →
      p.takeReport (.good (presentBytes f)) = if p.assembler.collecting then
        { p with assembler := { p.assembler with quiet := p.assembler.quiet + 1 } } else p) := by
  refine ⟨fun h0 h1 => ?_, fun h0 h1 => ?_, fun h0 h1 => ?_, fun h0 h1 => ?_⟩ <;>
    simp [presentBytes, h0, h1, Port.takeReport, assemblerTimeout_eq_self (.inr hq)]

/-- Settles O13: a good frame is one arrival, and its bytes go to the assembler (R15, R18, R32, R34). -/
theorem goodLinkFrame : Obligations.GoodLinkFrame := by
  intro s l f hframed _ halign hparity
  obtain ⟨hrx, hcv, hport, hframe⟩ := deliver_setRx s l
    { passFrame s.rx[l] with badRun := 0, hold := deliveredSamples f } (deliveredSamples f) (.good (presentBytes f))
  have hstep := (takeFrame_good hframed halign hparity).symm
  rw [State.goodFrame] at hstep
  rw [hstep] at hrx hcv hport hframe
  generalize s.takeFrame l f = t at hrx hcv hport hframe hstep
  have hrxl : t.rx[l] = { passFrame s.rx[l] with badRun := 0, hold := deliveredSamples f } := by
    rw [hrx]; exact getElem_set_self _ _ _
  have hcvl : t.cv[l] =
      arriveConv (s.modeOf l) (Config.arrivalCountPastEnd s.free) (deliveredSamples f) s.cv[l] := by
    rw [hcv]; exact getElem_set_self _ _ _
  refine ⟨t, ?_, ?_⟩
  · rw [← hstep]; exact congrArg Host.Outcome.next (takeFrame_good hframed halign hparity)
  · rw [hrxl, hcvl]
    refine ⟨rfl, hframed, rfl, rfl, fun i c hc => deliveredSamples_slot hc, rfl, rfl,
      fun e => arriveConv_ring _ _ _ _ e, rfl, rfl, arriveConv_n _ _ _ _, fun k hk => ⟨?_, ?_⟩, fun hmlk => ?_,
      fun hmlk hq => ?_, hframe⟩
    · rw [hrx]; exact getElem_set_ne _ _ hk
    · rw [hcv]; exact getElem_set_ne _ _ hk
    · rw [hport, if_neg hmlk]
    · rw [hport, if_pos hmlk]; exact takeReport_good f hq

/-! ### A faulted frame -/

/-- What a frame that repeats the hold copy leaves: the receiver as given, one arrival of the hold copy, and a faulted report
(R16, R17). -/
theorem repeatHold_effect (s : State) (l : LinkId) (x : Receiver) {t : State}
    (ht : ((s.setRx l x).arrive l s.rx[l].hold).report l .faulted = t) :
    t.rx[l] = x ∧
    t.cv[l] = { s.cv[l] with ring := t.cv[l].ring, w := s.cv[l].w + 1#32, n := t.cv[l].n } ∧
    (∀ e : Fin 64, t.cv[l].ring[e] = if e.val = s.cv[l].w.toNat % 64 then s.rx[l].hold else s.cv[l].ring[e]) ∧
    ((((s.cv[l].state = .acquiring ∨ s.cv[l].state = .unsupported) ∧ (s.modeOf l = .direct ∨ s.cv[l].m < 1024)) →
        s.cv[l].n < 65535 → t.cv[l].n = s.cv[l].n + 1) ∧
      (¬ ((s.cv[l].state = .acquiring ∨ s.cv[l].state = .unsupported) ∧ (s.modeOf l = .direct ∨ s.cv[l].m < 1024)) →
        t.cv[l].n = s.cv[l].n)) ∧
    (∀ k : LinkId, k ≠ l → t.rx[k] = s.rx[k] ∧ t.cv[k] = s.cv[k]) ∧ (l ≠ s.port.mlk → t.port = s.port) ∧
    (s.port.assembler.collecting = false → t.port = s.port) ∧
    (l = s.port.mlk → s.port.assembler.collecting = true → s.port.assembler.quiet < 64 →
      t.port = { s.port with
          assembler := idleAssembler,
          errors := { s.port.errors with frameFault := min 65535 (s.port.errors.frameFault + 1) } }) ∧
    t = { s with rx := t.rx, cv := t.cv, port := t.port, free := t.free } := by
  obtain ⟨hrx, hcv, hport, hframe⟩ := deliver_setRx s l x s.rx[l].hold .faulted
  rw [ht] at hrx hcv hport hframe
  have hcvl : t.cv[l] = arriveConv (s.modeOf l) (Config.arrivalCountPastEnd s.free) s.rx[l].hold s.cv[l] := by
    rw [hcv]; exact getElem_set_self _ _ _
  rw [hcvl]
  refine ⟨?_, rfl, fun e => arriveConv_ring _ _ _ _ e, arriveConv_n _ _ _ _, fun k hk => ⟨?_, ?_⟩, fun hmlk => ?_,
    fun hoff => ?_, fun hmlk hon hq => ?_, hframe⟩
  · rw [hrx]; exact getElem_set_self _ _ _
  · rw [hrx]; exact getElem_set_ne _ _ hk
  · rw [hcv]; exact getElem_set_ne _ _ hk
  · rw [hport, if_neg hmlk]
  · rw [hport]; split
    · exact (takeReport_idle hoff).1
    · rfl
  · rw [hport, if_pos hmlk]; exact takeReport_faulted hon hq

theorem takeFrame_misaligned {s : State} {l : LinkId} {f : LinkFrame} (hframed : s.rx[l].state = .framed)
    (halign : f.align ≠ alignmentWord) : s.takeFrame l f = s.alignmentFault l := by
  unfold State.takeFrame
  rw [hframed]
  exact if_pos halign

theorem takeFrame_odd {s : State} {l : LinkId} {f : LinkFrame} (hframed : s.rx[l].state = .framed)
    (halign : f.align = alignmentWord) (hparity : evenParity f = false) : s.takeFrame l f = s.parityFault l := by
  unfold State.takeFrame
  rw [hframed]
  exact (if_neg (not_not.2 halign)).trans (if_neg (by rw [hparity]; exact Bool.false_ne_true))

/-- Settles O14: a frame with a bad word repeats the hold copy three times and then ends FRAMED; one with odd parity repeats
it (R16, R17, R154). -/
theorem faultedLinkFrame : Obligations.FaultedLinkFrame := by
  intro s l f hframed
  refine ⟨fun halign hrun => ?_, fun halign hrun => ?_, fun halign hparity => ?_⟩
  · have hstep : s.takeFrame l f = ((s.setRx l { s.rx[l] with
        badRun := s.rx[l].badRun + 1, alignErrors := min 65535 (s.rx[l].alignErrors + 1),
        lookAt := s.rx[l].lookAt + 439, watch := 0 }).arrive l s.rx[l].hold).report l .faulted := by
      rw [takeFrame_misaligned hframed halign, ← countUp_eq]
      exact if_pos hrun
    obtain ⟨h1, h2, h3, h4, h5, h6, h7, h8, h9⟩ := repeatHold_effect s l _ hstep.symm
    exact ⟨_, rfl, h1, h2, h3, h4, h5, h6, h7, h8, h9⟩
  · have hstep : s.takeFrame l f = (s.setRx l { s.rx[l] with
        state := .hunting, candidates := 0, badRun := 0, alignErrors := min 65535 (s.rx[l].alignErrors + 1),
        lookAt := s.rx[l].lookAt + 16, watch := 0 }).leftFramed l := by
      rw [takeFrame_misaligned hframed halign, ← countUp_eq]
      exact if_neg (by omega)
    obtain ⟨hrx, hcv, hport, hframe⟩ := leftFramed_setRx s l { s.rx[l] with
      state := .hunting, candidates := 0, badRun := 0, alignErrors := min 65535 (s.rx[l].alignErrors + 1),
      lookAt := s.rx[l].lookAt + 16, watch := 0 }
    rw [← hstep] at hrx hcv hport hframe
    refine ⟨s.takeFrame l f, rfl, ?_, ?_, fun hoff => ?_, fun hmlk hon hq => ?_, fun k hk => ⟨?_, ?_⟩, fun hmlk => ?_,
      hframe⟩
    · rw [hrx]; exact getElem_set_self _ _ _
    · rw [hcv]; exact getElem_set_self _ _ _
    · rw [hport]; split
      · exact (takeReport_idle hoff).2
      · rfl
    · rw [hport, if_pos hmlk]; exact takeReport_leftFramed hon hq
    · rw [hrx]; exact getElem_set_ne _ _ hk
    · rw [hcv]; exact getElem_set_ne _ _ hk
    · rw [hport, if_neg hmlk]
  · have hstep : s.takeFrame l f = ((s.setRx l { s.rx[l] with
        badRun := 0, parityErrors := min 65535 (s.rx[l].parityErrors + 1), lookAt := s.rx[l].lookAt + 439,
        watch := 0 }).arrive l s.rx[l].hold).report l .faulted := by
      rw [takeFrame_odd hframed halign hparity, ← countUp_eq]; rfl
    obtain ⟨h1, h2, h3, h4, h5, h6, h7, h8, h9⟩ := repeatHold_effect s l _ hstep.symm
    exact ⟨_, rfl, h1, h2, h3, h4, h5, h6, h7, h8, h9⟩

end Sys2Proof.Machine
end

section
/-! PROOF. The work of a slice boundary: records, window, admission and decision (O9, O10, O11). -/

namespace Sys2Proof.Machine

/-! ### What the boundary's turns find and leave -/

/-- The state as the boundary's programme turns find it: the slice raised and the records rolled. -/
def State.boundaryStart (s : State) : State := s.raiseSlice.rollRecords s.tb.slice

/-- The power of a present programme at a boundary (R84, R86). -/
def State.boundaryPower (s : State) (r : ProgRecord) : Nat :=
  (r.members.map fun m => m.weight * (s.meas[m.channel].building.acc / sliceLength s.tb.rate96)).sum

theorem boundaryStart_frame (s : State) : s.boundaryStart = { s.raiseSlice with meas := s.boundaryStart.meas } :=
  rollRecords_frame _ _

theorem boundaryStart_meas (s : State) (c : ChannelId) :
    s.boundaryStart.meas[c] = rollMeas (sliceLength s.tb.rate96) s.tb.slice s.meas[c] := rollRecords_meas _ _ c

theorem foldl_add_eq_sum (f : Member → Nat) : ∀ (ms : List Member) (a : Nat),
    ms.foldl (fun a m => a + f m) a = a + (ms.map f).sum
  | [], a => rfl
  | m :: ms, a => by rw [List.foldl_cons, foldl_add_eq_sum f ms, List.map_cons, List.sum_cons, Nat.add_assoc]

theorem programmePower_eq_boundaryPower {s t : State} (h : t.meas = s.boundaryStart.meas) (r : ProgRecord) :
    t.programmePower r.members = s.boundaryPower r := by
  unfold State.programmePower State.boundaryPower
  rw [foldl_add_eq_sum (fun m => m.weight * t.meas[m.channel].latest.ms), Nat.zero_add, h]
  refine congrArg List.sum (List.map_congr_left fun m _ => ?_)
  simp only [boundaryStart_meas]
  rfl

theorem programmeBoundary_of_record {t : State} {p : ProgId} {r : ProgRecord} (h : t.record p = some r) :
    t.programmeBoundary p =
      (t.setLoud p (boundaryLoud r (t.programmePower r.members) t.loud[p])).setGain p
        (decideGain r (boundaryLoud r (t.programmePower r.members) t.loud[p]) t.tb.hfc (t.lookahead p) t.gain[p]) := by
  unfold State.programmeBoundary
  rw [h]
  dsimp only
  rw [State.setLoud_get_self]
  rfl

theorem programmeBoundary_of_absent {t : State} {p : ProgId} (h : t.record p = none) : t.programmeBoundary p = t := by
  unfold State.programmeBoundary
  rw [h]

theorem programmeBoundary_frame (t : State) (p : ProgId) :
    ∃ (loud : Vector Loud 8) (gain : Vector Gain 8), t.programmeBoundary p = { t with loud := loud, gain := gain } := by
  cases h : t.record p with
  | none => exact ⟨t.loud, t.gain, programmeBoundary_of_absent h⟩
  | some r => exact ⟨_, _, programmeBoundary_of_record h⟩

theorem programmeBoundary_other (t : State) (p q : ProgId) (h : q ≠ p) :
    ((t.programmeBoundary p).loud[q], (t.programmeBoundary p).gain[q]) = (t.loud[q], t.gain[q]) := by
  cases hr : t.record p with
  | none => rw [programmeBoundary_of_absent hr]
  | some r =>
    rw [programmeBoundary_of_record hr, State.setGain_get_ne _ _ _ _ h]
    exact congrArg (·, t.gain[q]) (State.setLoud_get_ne _ _ _ _ h)

/-- The two states are the same but for the loudness and gain states. -/
def SameButLoudGain (u t : State) : Prop :=
  ∃ (loud : Vector Loud 8) (gain : Vector Gain 8), t = { u with loud := loud, gain := gain }

theorem sameButLoudGain_refl (u : State) : SameButLoudGain u u := ⟨u.loud, u.gain, rfl⟩

theorem sameButLoudGain_turn {u t : State} (p : ProgId) (h : SameButLoudGain u t) :
    SameButLoudGain u (t.programmeBoundary p) := by
  obtain ⟨loud, gain, h⟩ := h
  obtain ⟨loud', gain', hturn⟩ := programmeBoundary_frame t p
  refine ⟨loud', gain', ?_⟩
  rw [hturn, h]

theorem sameButLoudGain_boundaryWork (s : State) : SameButLoudGain s.boundaryStart s.boundaryWork := by
  have hkeeps {u : State} (h : SameButLoudGain s.boundaryStart u) :
      SameButLoudGain s.boundaryStart (forProgs State.programmeBoundary u) :=
    forProgs_keeps (P := SameButLoudGain s.boundaryStart) (fun _ p ht => sameButLoudGain_turn p ht) h
  exact hkeeps (sameButLoudGain_refl _)

/-- What a boundary's start, and each programme's turn, leaves as it was (R3, R79). -/
theorem boundaryStart_unchanged {s t : State} (h : SameButLoudGain s.boundaryStart t) :
    t.meas = s.boundaryStart.meas ∧ t.tb = { s.tb with slice := s.tb.slice + 1#32 } ∧ t.frame.boundaryDue = false ∧
    t.weights = s.tables.weighting ∧ t.lines = s.lines ∧ t.sources = s.sources ∧ t.cv = s.cv ∧ t.rx = s.rx ∧
    t.tables = s.tables ∧ t.store = s.store := by
  obtain ⟨loud, gain, h⟩ := h
  have hstart := boundaryStart_frame s
  generalize s.boundaryStart = u at h hstart ⊢
  rw [h, hstart]
  exact ⟨rfl, rfl, rfl, rfl, rfl, rfl, rfl, rfl, rfl, rfl⟩

/-- A programme's loudness and gain are left as its own turn leaves them. -/
theorem programmeTurns_item (u : State) (p : ProgId) : ∃ t : State,
    SameButLoudGain u t ∧ t.loud[p] = u.loud[p] ∧ t.gain[p] = u.gain[p] ∧
    (forProgs State.programmeBoundary u).loud[p] = (t.programmeBoundary p).loud[p] ∧
    (forProgs State.programmeBoundary u).gain[p] = (t.programmeBoundary p).gain[p] := by
  obtain ⟨t, ht, hview, hitem⟩ := forProgs_item (view := fun (t : State) (p : ProgId) => (t.loud[p], t.gain[p]))
    (f := State.programmeBoundary) (P := SameButLoudGain u)
    programmeBoundary_other (fun t p ht => sameButLoudGain_turn p ht) (sameButLoudGain_refl u) p
  obtain ⟨hloud, hgain⟩ := Prod.mk.inj hview
  obtain ⟨hloud', hgain'⟩ := Prod.mk.inj hitem
  exact ⟨t, ht, hloud, hgain, hloud', hgain'⟩

theorem boundaryWork_eq (s : State) : s.boundaryWork = forProgs State.programmeBoundary s.boundaryStart := rfl

theorem boundaryWork_turn (s : State) (p : ProgId) : ∃ t : State,
    SameButLoudGain s.boundaryStart t ∧ t.loud[p] = s.loud[p] ∧ t.gain[p] = s.gain[p] ∧
    s.boundaryWork.loud[p] = (t.programmeBoundary p).loud[p] ∧ s.boundaryWork.gain[p] = (t.programmeBoundary p).gain[p] := by
  have hloud : s.boundaryStart.loud = s.loud := by rw [boundaryStart_frame]; rfl
  have hgain : s.boundaryStart.gain = s.gain := by rw [boundaryStart_frame]; rfl
  have hturns := programmeTurns_item s.boundaryStart p
  rw [hloud, hgain, ← boundaryWork_eq] at hturns
  exact hturns

theorem record_congr {s t : State} (h : t.tables = s.tables) (p : ProgId) : t.record p = s.record p := by
  unfold State.record State.active
  rw [h]

theorem qualifies_congr {s t : State} (h : t.tables = s.tables) (h' : t.sources = s.sources) : t.qualifies = s.qualifies := by
  funext c
  unfold State.qualifies State.regionOf State.selectedOf State.active
  rw [h, h']

theorem lookahead_congr {s t : State} (h : t.tables = s.tables) (h' : t.sources = s.sources) (hl : t.lines = s.lines)
    (p : ProgId) : t.lookahead p = s.lookahead p := by
  unfold State.lookahead
  rw [record_congr h, qualifies_congr h h', hl]

theorem boundaryWork_absent (s : State) {p : ProgId} (h : s.record p = none) :
    s.boundaryWork.loud[p] = s.loud[p] ∧ s.boundaryWork.gain[p] = s.gain[p] := by
  obtain ⟨t, ht, hloud, hgain, hloud', hgain'⟩ := boundaryWork_turn s p
  obtain ⟨_, _, _, _, _, _, _, _, htables, _⟩ := boundaryStart_unchanged ht
  have hturn := programmeBoundary_of_absent ((record_congr htables p).trans h)
  rw [hloud', hgain', hturn]
  exact ⟨hloud, hgain⟩

theorem boundaryWork_present (s : State) {p : ProgId} {r : ProgRecord} (h : s.record p = some r) :
    s.boundaryWork.loud[p] = boundaryLoud r (s.boundaryPower r) s.loud[p] ∧
    s.boundaryWork.gain[p] =
      decideGain r (boundaryLoud r (s.boundaryPower r) s.loud[p]) s.tb.hfc (s.lookahead p) s.gain[p] := by
  obtain ⟨t, ht, hloud, hgain, hloud', hgain'⟩ := boundaryWork_turn s p
  obtain ⟨hmeas, htb, _, _, hlines, hsources, _, _, htables, _⟩ := boundaryStart_unchanged ht
  have hhfc : t.tb.hfc = s.tb.hfc := by rw [htb]
  have hturn := programmeBoundary_of_record ((record_congr htables p).trans h)
  rw [programmePower_eq_boundaryPower hmeas r, hloud, hgain, lookahead_congr htables hsources hlines p, hhfc] at hturn
  rw [hloud', hgain', hturn]
  exact ⟨State.setLoud_get_self _ _ _, State.setGain_get_self _ _ _⟩

/-- SLICE_BOUNDARY in a frame at phase 0 ends in the boundary's work with the evaluation of the rules. -/
theorem exec_sliceBoundary {s : State} (h : s.frame.boundaryDue = true) :
    exec .sliceBoundary s = .next s.boundaryWork.evaluateBoundary :=
  congrArg Host.Outcome.next (if_pos h : s.sliceBoundary = s.boundaryWork.evaluateBoundary)

theorem evaluateBoundary_loud (s : State) : s.evaluateBoundary.loud = s.loud := by
  rw [evaluateBoundary_frame]

theorem evaluateBoundary_gain (s : State) : s.evaluateBoundary.gain = s.gain := by
  rw [evaluateBoundary_frame]

/-- Settles O9: a boundary's work leaves all but the loudness and gain states as its start leaves them, and each programme's
turn pushes the power of the rolled records. -/
theorem sliceBoundaryWork : Obligations.SliceBoundaryWork := by
  intro s hdue
  refine ⟨_, exec_sliceBoundary hdue, ?_⟩
  obtain ⟨hmeas, htb, hdone, hweights, hlines, hsources, hcv, hrx, htables, hstore⟩ :=
    boundaryStart_unchanged (sameButLoudGain_boundaryWork s)
  have habsent (p : ProgId) (hp : s.record p = none) := boundaryWork_absent s hp
  have hpresent (p : ProgId) (r : ProgRecord) (hr : s.record p = some r) := (boundaryWork_present s hr).1
  rw [evaluateBoundary_frame]
  generalize s.boundaryWork = t at hmeas htb hdone hweights hlines hsources hcv hrx htables hstore habsent hpresent ⊢
  refine ⟨htb, hdone, hweights, fun c => ?_, fun p r hr => ?_, habsent, hlines, hsources, hcv, hrx, htables, hstore⟩
  · simp only [hmeas]
    exact boundaryStart_meas s c
  · simp only [hpresent p r hr, boundaryLoud_history]
    rfl

/-! ### The decision (R100 to R102) -/

theorem controlLevel_eq (r : ProgRecord) (l : Loud) :
    controlLevel r l = match r.mode, l.window with
      | .integrated, _ => if l.count = 0 then none else some (rawLevel (l.sum / l.count) + r.offset)
      | .short, some w => if w.gatedIn then some (w.raw + r.offset) else none
      | _, _ => none := by
  unfold controlLevel integratedLevel
  cases r.mode <;> cases l.window <;> rfl

theorem decideGain_noLevel {r : ProgRecord} {l : Loud} (h : controlLevel r l = none) (hfc : Instant) (n : Nat) (g : Gain) :
    decideGain r l hfc n g = { g with decision := .noLevel, gNew := none } := by
  unfold decideGain
  rw [h]

theorem decideGain_level {r : ProgRecord} {l : Loud} {x : Int} (h : controlLevel r l = some x) (hfc : Instant) (n : Nat)
    (g : Gain) :
    decideGain r l hfc n g =
      if (newGain r x - referenceGain g).natAbs < r.deadband then
        { g with gNew := some (newGain r x), decision := .withinDeadband }
      else enqueueGain hfc (hfc + BitVec.ofNat 32 n) (newGain r x) { g with gNew := some (newGain r x) } := by
  unfold decideGain
  rw [h]
  rfl

theorem enqueueGain_empty {g : Gain} (h : g.queue = []) (hfc due : Instant) (x : Int) :
    enqueueGain hfc due x g = { g with queue := [{ due := due, target := x }], decision := .appended } := by
  unfold enqueueGain
  rw [h]
  rfl

theorem enqueueGain_tail {g : Gain} {tail : GainEntry} (h : g.queue.getLast? = some tail) (hfc due : Instant) (x : Int) :
    enqueueGain hfc due x g =
      if g.queue.length < 4 then
        { g with queue := g.queue ++ [{ due := laterInstant hfc due tail.due, target := x }], decision := .appended }
      else { g with queue := g.queue.dropLast ++ [{ due := laterInstant hfc due tail.due, target := x }],
                    decision := .coalesced } := by
  unfold enqueueGain
  rw [h]

theorem enqueueGain_gains (hfc due : Instant) (x : Int) (g : Gain) :
    (enqueueGain hfc due x g).tgt = g.tgt ∧ (enqueueGain hfc due x g).app = g.app ∧
    (enqueueGain hfc due x g).gNew = g.gNew := by
  unfold enqueueGain
  split
  · exact ⟨rfl, rfl, rfl⟩
  · dsimp only; split <;> exact ⟨rfl, rfl, rfl⟩

theorem referenceGain_eq (g : Gain) : referenceGain g = (g.queue.getLast?.map (·.target)).getD g.tgt := by
  unfold referenceGain
  cases g.queue.getLast? <;> rfl

/-- A decision leaves G_tgt and G_app. -/
theorem decideGain_gains (r : ProgRecord) (l : Loud) (hfc : Instant) (n : Nat) (g : Gain) :
    (decideGain r l hfc n g).tgt = g.tgt ∧ (decideGain r l hfc n g).app = g.app := by
  cases h : controlLevel r l with
  | none => rw [decideGain_noLevel h]; exact ⟨rfl, rfl⟩
  | some x =>
    rw [decideGain_level h]
    split
    · exact ⟨rfl, rfl⟩
    · obtain ⟨htgt, happ, _⟩ := enqueueGain_gains hfc (hfc + BitVec.ofNat 32 n) (newGain r x) { g with gNew := some (newGain r x) }
      exact ⟨htgt, happ⟩

/-- The lookahead is the smallest delay among the members that qualify (R73). -/
theorem lookahead_spec {s : State} {p : ProgId} {r : ProgRecord} (h : s.record p = some r) :
    (∀ m ∈ r.members, s.qualifies m.channel = true → s.lookahead p ≤ s.lines[m.channel].cur) ∧
    ((∃ m ∈ r.members, s.qualifies m.channel = true) →
      ∃ m ∈ r.members, s.qualifies m.channel = true ∧ s.lookahead p = s.lines[m.channel].cur) ∧
    ((∀ m ∈ r.members, ¬ s.qualifies m.channel = true) → s.lookahead p = 0) := by
  have hlook : s.lookahead p =
      (((r.members.map (·.channel)).filter s.qualifies).map fun c => s.lines[c].cur).min?.getD 0 := by
    unfold State.lookahead; rw [h]
  have hmem (x : Nat) : x ∈ (((r.members.map (·.channel)).filter s.qualifies).map fun c => s.lines[c].cur) ↔
      ∃ m ∈ r.members, s.qualifies m.channel = true ∧ x = s.lines[m.channel].cur := by
    simp only [List.mem_map, List.mem_filter]
    constructor
    · rintro ⟨c, ⟨⟨m, hm, rfl⟩, hq⟩, rfl⟩; exact ⟨m, hm, hq, rfl⟩
    · rintro ⟨m, hm, hq, rfl⟩; exact ⟨m.channel, ⟨⟨m, hm, rfl⟩, hq⟩, rfl⟩
  rw [hlook]
  generalize (((r.members.map (·.channel)).filter s.qualifies).map fun c => s.lines[c].cur) = delays at hmem
  cases hmin : delays.min? with
  | none =>
    have hnone (x : Nat) : x ∉ delays := by rw [List.min?_eq_none_iff.1 hmin]; exact List.not_mem_nil
    exact ⟨fun m hm hq => absurd ((hmem _).2 ⟨m, hm, hq, rfl⟩) (hnone _),
      fun ⟨m, hm, hq⟩ => absurd ((hmem _).2 ⟨m, hm, hq, rfl⟩) (hnone _), fun _ => rfl⟩
  | some d =>
    obtain ⟨hd, hle⟩ := List.min?_eq_some_iff.1 hmin
    obtain ⟨m, hm, hq, hcur⟩ := (hmem d).1 hd
    exact ⟨fun m hm hq => hle _ ((hmem _).2 ⟨m, hm, hq, rfl⟩), fun _ => ⟨m, hm, hq, hcur⟩,
      fun hno => absurd hq (hno m hm)⟩

theorem qualifies_iff (s : State) (c : ChannelId) :
    s.qualifies c = true ↔ s.regionOf c ≠ none ∧ s.selectedOf c ≠ none := by
  unfold State.qualifies
  rw [Bool.and_eq_true, Option.isSome_iff_ne_none, Option.isSome_iff_ne_none]

/-- Settles O10: the decision is that of the record and of the loudness state as the programme's turn leaves it. -/
theorem decisionAtABoundary : Obligations.DecisionAtABoundary := by
  intro s p r hdue hr
  refine ⟨_, exec_sliceBoundary hdue, ?_⟩
  rw [evaluateBoundary_loud, evaluateBoundary_gain]
  obtain ⟨hloud, hgain⟩ := boundaryWork_present s hr
  rw [hloud, hgain]
  generalize boundaryLoud r (s.boundaryPower r) s.loud[p] = l
  obtain ⟨hlow, hsome, hnone⟩ := lookahead_spec hr
  simp only [qualifies_iff] at hlow hsome hnone
  obtain ⟨htgt, happ⟩ := decideGain_gains r l s.tb.hfc (s.lookahead p) s.gain[p]
  refine ⟨htgt, happ, ?_, ?_, hlow, hsome, hnone⟩
  · intro hlevel
    rw [decideGain_noLevel ((controlLevel_eq r l).trans hlevel)]
    exact ⟨rfl, rfl, rfl⟩
  · intro x hlevel
    rw [decideGain_level ((controlLevel_eq r l).trans hlevel), referenceGain_eq]
    generalize s.gain[p] = g
    unfold newGain clampGain
    refine ⟨?_, fun hnear => ?_, fun hfar => ?_⟩
    · split
      · rfl
      · exact (enqueueGain_gains _ _ _ _).2.2
    · rw [if_pos hnear]
      exact ⟨rfl, rfl⟩
    · rw [if_neg (Nat.not_lt.2 hfar)]
      refine ⟨fun hempty => ?_, fun tail htail => ⟨fun hroom => ?_, fun hfull => ?_⟩⟩
      · rw [enqueueGain_empty (g := { g with gNew := some _ }) hempty]
        exact ⟨rfl, rfl⟩
      · rw [enqueueGain_tail (g := { g with gNew := some _ }) htail, if_pos hroom]
        exact ⟨rfl, rfl⟩
      · rw [enqueueGain_tail (g := { g with gNew := some _ }) htail, if_neg (Nat.not_lt.2 hfull.ge)]
        exact ⟨rfl, rfl⟩

/-! ### The window (R89 to R92) -/

theorem passesRelative_iff (raw offset : Int) (depth : Nat) (l : Loud) :
    passesRelative raw offset depth l = true ↔
      l.count = 0 ∨ rawLevel (l.sum / l.count) + offset - depth ≤ raw + offset := by
  unfold passesRelative integratedLevel
  by_cases hcount : l.count = 0
  · simp [hcount]
  · simp [hcount]

theorem boundaryLoud_short {r : ProgRecord} {p : Nat} {l : Loud} (h : ((p :: l.history).take 4).length < 4) :
    boundaryLoud r p l = { l with history := (p :: l.history).take 4, window := none } := if_pos h

/-- With four powers: the window, its gates and the admission (R89 to R92). -/
theorem boundaryLoud_full {r : ProgRecord} {p : Nat} {l : Loud} (h : ((p :: l.history).take 4).length = 4) (w : Nat)
    (hw : w = ((p :: l.history).take 4).sum / 4) (gate enters : Bool) (hgate : gate = gatedIn (rawLevel w) r.offset r.absGate)
    (henters : enters = (gate && passesRelative (rawLevel w) r.offset r.gateDepth l)) :
    boundaryLoud r p l = { (if enters then admitPower w l else l) with
      history := (p :: l.history).take 4,
      window := some { power := w, raw := rawLevel w, gatedIn := gate, admitted := enters } } := by
  subst hw hgate henters
  rw [List.sum_eq_foldl]
  exact if_neg (by unfold pushPower; omega)

/-- Settles O11: the window of four powers, by the two gates and the integrator's halving. -/
theorem windowAndAdmission : Obligations.WindowAndAdmission := by
  intro s p r hdue hr l power history w level gated passes window
  refine ⟨_, exec_sliceBoundary hdue, ?_⟩
  rw [evaluateBoundary_loud, (boundaryWork_present s hr).1]
  refine ⟨fun hshort => boundaryLoud_short hshort, fun hfull => ?_⟩
  have hgate : gated ↔ gatedIn (rawLevel w) r.offset r.absGate = true := by simp [gated, level, gatedIn]
  have hpass : passes ↔ passesRelative (rawLevel w) r.offset r.gateDepth l = true := (passesRelative_iff _ _ _ _).symm
  refine ⟨fun hg hp hc => ?_, fun hg hp hc => ?_, fun hg hp => ?_, fun hg => ?_⟩
  · refine (boundaryLoud_full hfull w rfl true true (hgate.1 hg).symm (hpass.1 hp).symm).trans ?_
    rw [if_pos rfl, admitPower, if_neg (Nat.ne_of_lt hc)]
  · refine (boundaryLoud_full hfull w rfl true true (hgate.1 hg).symm (hpass.1 hp).symm).trans ?_
    rw [if_pos rfl, admitPower, if_pos hc]
  · refine (boundaryLoud_full hfull w rfl true false (hgate.1 hg).symm ?_).trans rfl
    exact (Bool.eq_false_iff.2 fun h => hp (hpass.2 h)).symm
  · exact (boundaryLoud_full hfull w rfl false false (Bool.eq_false_iff.2 fun h => hg (hgate.2 h)).symm rfl).trans rfl

end Sys2Proof.Machine
end

section
/-! PROOF. Link frames, table records and context records taken apart are what was laid out (O51). -/

namespace Sys2Proof.Machine

/-! ### Fields of bytes at an offset (R183) -/

theorem beBytes_one (v : Nat) : beBytes 1 v = [BitVec.ofNat 8 v] := by simp [beBytes]

/-- A signed field in the range of its width reads back (R183). -/
theorem fromBytesSigned_beSigned {k : Nat} {v : Int} (hlo : -(256 ^ k : Nat) ≤ 2 * v) (hhi : 2 * v < (256 ^ k : Nat)) :
    fromBytesSigned (beSigned k v) = v := by
  unfold fromBytesSigned beSigned
  simp only [fromBytes_beBytes, beBytes_length]
  have hpos : 0 < 256 ^ k := Nat.pow_pos (by decide)
  generalize 256 ^ k = n at *
  have hn : (0 : Int) < n := by exact_mod_cast hpos
  have hnonneg : 0 ≤ v % n := Int.emod_nonneg _ (ne_of_gt hn)
  have hlt : v % n < n := Int.emod_lt_of_pos _ hn
  have hmod : (v % (n : Int)).toNat % n = (v % n).toNat := Nat.mod_eq_of_lt (by omega)
  rw [hmod]
  by_cases hv : 0 ≤ v
  · have hsame : v % n = v := Int.emod_eq_of_lt hv (by omega)
    rw [hsame]
    split <;> omega
  · have hwrap : v % n = v + n := by
      rw [← Int.add_emod_right]
      exact Int.emod_eq_of_lt (by omega) (by omega)
    rw [hwrap]
    split <;> omega

theorem drop_append_past {α : Type} {a : List α} {i : Nat} (h : a.length ≤ i) (b : List α) :
    (a ++ b).drop i = b.drop (i - a.length) := by
  rw [List.drop_append, List.drop_eq_nil_of_le h, List.nil_append]

theorem byteAt_append_past {a : List Byte} {i : Nat} (h : a.length ≤ i) (b : List Byte) :
    byteAt (a ++ b) i = byteAt b (i - a.length) := by
  unfold byteAt
  rw [List.getD_append_right _ _ _ _ h]

theorem fieldAt_append_past {a : List Byte} {i : Nat} (h : a.length ≤ i) (b : List Byte) (k : Nat) :
    fieldAt (a ++ b) i k = fieldAt b (i - a.length) k := by
  unfold fieldAt
  rw [drop_append_past h]

theorem signedAt_append_past {a : List Byte} {i : Nat} (h : a.length ≤ i) (b : List Byte) (k : Nat) :
    signedAt (a ++ b) i k = signedAt b (i - a.length) k := by
  unfold signedAt
  rw [drop_append_past h]

theorem byteAt_head (v : Nat) (b : List Byte) : byteAt (beBytes 1 v ++ b) 0 = v % 256 := by
  simp [byteAt, beBytes_one]

theorem fieldAt_head (k v : Nat) (b : List Byte) : fieldAt (beBytes k v ++ b) 0 k = v % 256 ^ k := by
  unfold fieldAt
  rw [List.drop_zero, List.take_left' (beBytes_length k v), fromBytes_beBytes]

theorem signedAt_head {k : Nat} {v : Int} (hlo : -(256 ^ k : Nat) ≤ 2 * v) (hhi : 2 * v < (256 ^ k : Nat)) (b : List Byte) :
    signedAt (beSigned k v ++ b) 0 k = v := by
  unfold signedAt
  rw [List.drop_zero, List.take_left' (beSigned_length k v), fromBytesSigned_beSigned hlo hhi]

theorem fieldAt_all (k v : Nat) : fieldAt (beBytes k v) 0 k = v % 256 ^ k := by
  have h := fieldAt_head k v []
  rwa [List.append_nil] at h

theorem signedAt_all {k : Nat} {v : Int} (hlo : -(256 ^ k : Nat) ≤ 2 * v) (hhi : 2 * v < (256 ^ k : Nat)) :
    signedAt (beSigned k v) 0 k = v := by
  have h := signedAt_head hlo hhi []
  rwa [List.append_nil] at h

/-! ### Link frames (section 11.2) -/

/-- The number that the first n bits of a field spell. -/
theorem foldl_getMsbD {w : Nat} (x : BitVec w) : ∀ n ≤ w,
    ((List.range n).map fun i => x.getMsbD i).foldl (fun a b => 2 * a + b.toNat) 0 = x.toNat / 2 ^ (w - n)
  | 0, _ => by simpa using (Nat.div_eq_of_lt x.isLt).symm
  | n + 1, h => by
    rw [List.range_succ, List.map_append, List.foldl_append, foldl_getMsbD x n (by omega)]
    have hbit : (x.getMsbD n).toNat = x.toNat / 2 ^ (w - (n + 1)) % 2 := by
      have hn : n < w := h
      rw [BitVec.getMsbD, decide_eq_true hn, Bool.true_and, BitVec.getLsbD, Nat.testBit_eq_decide_div_mod_eq,
        show w - 1 - n = w - (n + 1) by omega]
      rcases Nat.mod_two_eq_zero_or_one (x.toNat / 2 ^ (w - (n + 1))) with h0 | h0 <;> simp [h0]
    have hhalf : x.toNat / 2 ^ (w - n) = x.toNat / 2 ^ (w - (n + 1)) / 2 := by
      rw [Nat.div_div_eq_div_mul, ← pow_succ, show w - (n + 1) + 1 = w - n by omega]
    simp only [List.map_cons, List.map_nil, List.foldl_cons, List.foldl_nil]
    rw [hbit, hhalf]
    omega

theorem fieldCells_length {w : Nat} (x : BitVec w) : (fieldCells x).length = w := by simp [fieldCells]

theorem cellsField_fieldCells {w : Nat} (x : BitVec w) (bs : List Bool) : cellsField w (fieldCells x ++ bs) = x := by
  unfold cellsField
  rw [List.take_left' (fieldCells_length x), fieldCells, foldl_getMsbD x w le_rfl]
  simp

theorem slotCells_length (c : SlotCell) : (slotCells c).length = 25 := by simp [slotCells, fieldCells_length]

theorem cellAt_append_past {a : List Bool} {i : Nat} (h : a.length ≤ i) (b : List Bool) :
    cellAt (a ++ b) i = cellAt b (i - a.length) := by
  unfold cellAt
  rw [List.getD_append_right _ _ _ _ h]

theorem readSlot_slotCells (c : SlotCell) (bs : List Bool) : readSlot (slotCells c ++ bs) = c := by
  unfold readSlot slotCells
  rw [List.append_assoc, cellsField_fieldCells, cellAt_append_past (by rw [fieldCells_length]), fieldCells_length]
  rfl

theorem flatMap_slotCells_length (cs : List SlotCell) : (cs.flatMap slotCells).length = 25 * cs.length := by
  simp [List.length_flatMap, slotCells_length, Nat.mul_comm]

/-- The slot in place i reads back from its cells. -/
theorem readSlot_flatMap (bs : List Bool) : ∀ (cs : List SlotCell) (i : Nat) (h : i < cs.length),
    readSlot ((cs.flatMap slotCells ++ bs).drop (25 * i)) = cs[i]
  | c :: cs, 0, _ => by
    rw [List.flatMap_cons, List.append_assoc]
    exact readSlot_slotCells c _
  | c :: cs, i + 1, h => by
    rw [List.flatMap_cons, List.append_assoc, drop_append_past (by rw [slotCells_length]; omega), slotCells_length,
      show 25 * (i + 1) - 25 = 25 * i by omega]
    exact readSlot_flatMap bs cs i (Nat.lt_of_succ_lt_succ h)

theorem serviceCells_length (f : LinkFrame) : (serviceCells f).length = 22 := by simp [serviceCells, fieldCells_length]

theorem coveredCells_length {f : LinkFrame} (h : f.slots.length = 16) : (coveredCells f).length = 438 := by
  rw [coveredCells, List.length_append, List.length_append, fieldCells_length, flatMap_slotCells_length,
    serviceCells_length, h]

theorem frameCells_eq (f : LinkFrame) :
    frameCells f = fieldCells f.align ++ (f.slots.flatMap slotCells ++ (serviceCells f ++ [f.parity])) := by
  simp [frameCells, coveredCells, List.append_assoc]

/-- The service slot's cells, and the parity cell after them, each at its place (section 11.2). -/
theorem readService (f : LinkFrame) : let bs := serviceCells f ++ [f.parity]
    cellAt bs 0 = f.start ∧ cellAt bs 1 = f.present0 ∧ cellsField 8 (bs.drop 2) = f.byte0 ∧ cellAt bs 10 = f.present1 ∧
    cellsField 8 (bs.drop 11) = f.byte1 ∧ cellAt bs 19 = f.maj ∧ cellAt bs 20 = f.min ∧ cellAt bs 21 = f.ntc ∧
    cellAt bs 22 = f.parity := by
  intro bs
  have hbs : bs = [f.start, f.present0] ++ (fieldCells f.byte0 ++ ([f.present1] ++ (fieldCells f.byte1 ++
      [f.maj, f.min, f.ntc, f.parity]))) := by simp [bs, serviceCells, List.append_assoc]
  rw [hbs]
  refine ⟨rfl, rfl, cellsField_fieldCells _ _, ?_, ?_, ?_, ?_, ?_, ?_⟩
  · rw [cellAt_append_past (by simp), cellAt_append_past (by simp [fieldCells_length]), fieldCells_length]
    rfl
  · rw [drop_append_past (by simp), drop_append_past (by simp [fieldCells_length]), fieldCells_length]
    exact cellsField_fieldCells _ _
  all_goals
    rw [cellAt_append_past (by simp), cellAt_append_past (by simp [fieldCells_length]), fieldCells_length,
      cellAt_append_past (by simp), cellAt_append_past (by simp [fieldCells_length]), fieldCells_length]
    rfl

theorem readFrame_frameCells {f : LinkFrame} (h : f.slots.length = 16) : readFrame (frameCells f) = f := by
  have hslots : (f.slots.flatMap slotCells).length = 400 := by rw [flatMap_slotCells_length, h]
  have hcell (i : Nat) (hi : 416 ≤ i) :
      cellAt (frameCells f) i = cellAt (serviceCells f ++ [f.parity]) (i - 416) := by
    rw [frameCells_eq, cellAt_append_past (by rw [fieldCells_length]; omega), fieldCells_length,
      cellAt_append_past (by omega), hslots, Nat.sub_sub]
  have hdrop (i : Nat) (hi : 416 ≤ i) :
      (frameCells f).drop i = (serviceCells f ++ [f.parity]).drop (i - 416) := by
    rw [frameCells_eq, drop_append_past (by rw [fieldCells_length]; omega), fieldCells_length,
      drop_append_past (by omega), hslots, Nat.sub_sub]
  have halign : cellsField 16 (frameCells f) = f.align := by rw [frameCells_eq, cellsField_fieldCells]
  have hread : ((List.range 16).map fun i => readSlot ((frameCells f).drop (16 + 25 * i))) = f.slots := by
    refine List.ext_getElem (by simp [h]) fun i hi hi' => ?_
    rw [List.getElem_map, List.getElem_range, frameCells_eq,
      drop_append_past (by rw [fieldCells_length]; omega), fieldCells_length, Nat.add_sub_cancel_left]
    exact readSlot_flatMap _ _ _ hi'
  obtain ⟨hstart, hpresent0, hbyte0, hpresent1, hbyte1, hmaj, hmin, hntc, hparity⟩ := readService f
  unfold readFrame
  rw [halign, hread, hcell 416 (by decide), hcell 417 (by decide), hdrop 418 (by decide), hcell 426 (by decide),
    hdrop 427 (by decide), hcell 435 (by decide), hcell 436 (by decide), hcell 437 (by decide), hcell 438 (by decide),
    hstart, hpresent0, hbyte0, hpresent1, hbyte1, hmaj, hmin, hntc, hparity]

/-- A parity cell set over the frame makes the count of ones even (R184). -/
theorem evenParity_setParity (f : LinkFrame) : evenParity (setParity f) = true := by
  have hcovered : coveredCells (setParity f) = coveredCells f := rfl
  have hparity : (setParity f).parity = oddOnes (coveredCells f) := rfl
  unfold evenParity frameCells
  rw [hcovered, hparity]
  generalize coveredCells f = bs
  simp [oddOnes, List.foldl_append]

/-! ### Table records (section 11.5) -/

theorem readSource_sourceByte (x : Option Source) : readSource (sourceByte x).toNat = some x := by
  match x with
  | none => rfl
  | some ⟨link, slot⟩ =>
    have hl := link.isLt
    have hs := slot.isLt
    have hbyte : (sourceByte (some ⟨link, slot⟩)).toNat = link.val * 16 + slot.val := by
      simp only [sourceByte, BitVec.toNat_ofNat]
      omega
    have hlink : Fin.ofNat 4 ((link.val * 16 + slot.val) / 16) = link := by
      apply Fin.ext
      simp only [Fin.val_ofNat]
      omega
    have hslot : Fin.ofNat 16 (link.val * 16 + slot.val) = slot := by
      apply Fin.ext
      simp only [Fin.val_ofNat]
      omega
    unfold readSource
    rw [hbyte, if_neg (by omega), if_pos (by omega), hlink, hslot]

theorem readSlotEntry_bytes {e : SlotEntry} (h : e.backup = none ∨ (e.primary ≠ none ∧ e.primary ≠ e.backup)) :
    readSlotEntry [sourceByte e.primary, sourceByte e.backup, BitVec.ofNat 8 (flag e.manual)] = some e := by
  have hmanual : byteAt [sourceByte e.primary, sourceByte e.backup, BitVec.ofNat 8 (flag e.manual)] 2 = flag e.manual := by
    cases e.manual <;> rfl
  have hprimary : byteAt [sourceByte e.primary, sourceByte e.backup, BitVec.ofNat 8 (flag e.manual)] 0 =
      (sourceByte e.primary).toNat := rfl
  have hbackup : byteAt [sourceByte e.primary, sourceByte e.backup, BitVec.ofNat 8 (flag e.manual)] 1 =
      (sourceByte e.backup).toNat := rfl
  unfold readSlotEntry
  rw [hmanual, hprimary, hbackup, readSource_sourceByte, readSource_sourceByte]
  obtain ⟨primary, backup, manual⟩ := e
  cases manual <;> simp_all [flag]

theorem kindOf_kindCode (k : RuleKind) : kindOf (kindCode k) = some k := by cases k <;> rfl

theorem controlOf_controlCode (m : ControlMode) : controlOf (controlCode m) = some m := by cases m <;> rfl

theorem moveModeOf_moveModeCode (m : MoveMode) : moveModeOf (moveModeCode m) = some m := by cases m <;> rfl

theorem kindCode_lt (k : RuleKind) : kindCode k < 256 := by cases k <;> decide

theorem controlCode_lt (m : ControlMode) : controlCode m < 256 := by cases m <;> decide

theorem moveModeCode_lt (m : MoveMode) : moveModeCode m < 256 := by cases m <;> decide

/-- What a valid rule record bounds (R120). -/
theorem ruleValid_bounds {r : RuleRecord} (h : ruleValid r = true) :
    r.subject < 256 ∧ -1400 ≤ r.threshold ∧ r.threshold ≤ 8388608 ∧ r.raiseTime ≤ 600 ∧ r.clearTime ≤ 600 := by
  simp only [ruleValid, within, Bool.and_eq_true, decide_eq_true_eq] at h
  obtain ⟨⟨⟨hsubject, hlo, hhi⟩, hraise⟩, hclear⟩ := h
  have htop : subjectTop r.kind ≤ 31 := by cases r.kind <;> decide
  have hrange : -1400 ≤ (thresholdRange r.kind).1 ∧ (thresholdRange r.kind).2 ≤ 8388608 := by cases r.kind <;> decide
  omega

/-- The flags byte of a rule gives its four fields back (section 11.5). -/
theorem ruleFlags_read (r : RuleRecord) :
    let n := flag r.enabled * 128 + flag r.latch * 64 + severityCode r.severity * 16 + actionCode r.action
    n < 256 ∧ severityOf (n / 16 % 4) = some r.severity ∧ actionOf (n % 4) = some r.action ∧
    (n / 128 == 1) = r.enabled ∧ (n / 64 % 2 == 1) = r.latch := by
  cases r.enabled <;> cases r.latch <;> cases r.severity <;> cases r.action <;> decide

theorem readRule_ruleBytes {r : RuleRecord} (h : ruleValid r = true) : readRule (ruleBytes r) = some r := by
  obtain ⟨hsubject, hlo, hhi, hraise, hclear⟩ := ruleValid_bounds h
  obtain ⟨hflags, hseverity, haction, henabled, hlatch⟩ := ruleFlags_read r
  generalize hn : flag r.enabled * 128 + flag r.latch * 64 + severityCode r.severity * 16 + actionCode r.action = n at *
  have hbytes : ruleBytes r = beBytes 1 n ++ (beBytes 1 (kindCode r.kind) ++ (beBytes 1 r.subject ++
      (beSigned 4 r.threshold ++ (beBytes 2 r.raiseTime ++ beBytes 2 r.clearTime)))) := by
    simp only [ruleBytes, hn, List.append_assoc]
  have hthreshold (b : List Byte) : signedAt (beSigned 4 r.threshold ++ b) 0 4 = r.threshold :=
    signedAt_head (by norm_num; omega) (by norm_num; omega) b
  have hkind := Nat.mod_eq_of_lt (kindCode_lt r.kind)
  unfold readRule
  rw [hbytes]
  simp (disch := simp) only [byteAt_head, byteAt_append_past, fieldAt_append_past, signedAt_append_past, beBytes_length,
    beSigned_length, Nat.reduceSub, fieldAt_head, fieldAt_all, hthreshold, hkind, Nat.mod_eq_of_lt hsubject,
    Nat.mod_eq_of_lt hflags, Nat.mod_eq_of_lt (show r.raiseTime < 256 ^ 2 by omega),
    Nat.mod_eq_of_lt (show r.clearTime < 256 ^ 2 by omega), kindOf_kindCode, hseverity, haction, henabled, hlatch]
  exact if_pos h

theorem readMembers_bytes : ∀ {ms : List Member}, (∀ m ∈ ms, m.weight ≤ 31) →
    readMembers (ms.flatMap fun m => beBytes 1 m.channel.val ++ beBytes 1 m.weight) = some ms
  | [], _ => rfl
  | m :: ms, h => by
    have hw : m.weight ≤ 31 := h m List.mem_cons_self
    have hc : m.channel.val < 32 := m.channel.isLt
    have hrest := readMembers_bytes fun x hx => h x (List.mem_cons_of_mem m hx)
    have hchannel : (BitVec.ofNat 8 m.channel.val).toNat = m.channel.val := by
      rw [BitVec.toNat_ofNat]; omega
    have hweight : (BitVec.ofNat 8 m.weight).toNat = m.weight := by
      rw [BitVec.toNat_ofNat]; omega
    rw [List.flatMap_cons, beBytes_one, beBytes_one, List.cons_append, List.nil_append, List.cons_append, List.cons_append,
      List.nil_append, readMembers, hrest]
    simp only [hchannel, hweight]
    rw [dif_pos hc, if_pos (by omega)]

/-- What a valid programme record bounds (R141). -/
theorem programmeValid_bounds {p : ProgRecord} (h : programmeValid p = true) :
    1 ≤ p.members.length ∧ p.members.length ≤ 8 ∧ (∀ m ∈ p.members, m.weight ≤ 31) ∧ -400 ≤ p.target ∧ p.target ≤ -100 ∧
    p.strength ≤ 8 ∧ p.deadband ≤ 50 ∧ p.boostMax ≤ 120 ∧ p.cutMax ≤ 240 ∧ p.interval ≤ 4095 ∧ -240 ≤ p.trim ∧
    p.trim ≤ 120 ∧ p.dt ≤ 65535 ∧ p.slewInterval ≤ 4096 ∧ -200 ≤ p.offset ∧ p.offset ≤ 200 ∧ -990 ≤ p.absGate ∧
    p.absGate ≤ -200 ∧ p.gateDepth ≤ 300 := by
  simp only [programmeValid, within, Bool.and_eq_true, decide_eq_true_eq, List.all_eq_true] at h
  obtain ⟨⟨⟨⟨⟨⟨⟨⟨⟨⟨⟨⟨⟨⟨⟨⟨⟨h1, h8⟩, hw⟩, -⟩, htlo, hthi⟩, hk⟩, hd⟩, hb⟩, hc⟩, -⟩, hi⟩, hrlo, hrhi⟩, hdt⟩, -⟩, hs⟩, holo, hohi⟩,
    hglo, hghi⟩, hdepth⟩ := h
  exact ⟨h1, h8, hw, htlo, hthi, hk, hd, hb, hc, hi, hrlo, hrhi, hdt, hs, holo, hohi, hglo, hghi, hdepth⟩

theorem readProgramme_programmeBytes {p : ProgRecord} (h : programmeValid p = true) :
    readProgramme (programmeBytes p) = some (some p) := by
  obtain ⟨h1, h8, hw, htlo, hthi, hk, hd, hb, hc, hi, hrlo, hrhi, hdt, hs, holo, hohi, hglo, hghi, hdepth⟩ :=
    programmeValid_bounds h
  have hsigned {v : Int} (hlo : -32768 ≤ v) (hhi : v ≤ 32767) (b : List Byte) : signedAt (beSigned 2 v ++ b) 0 2 = v :=
    signedAt_head (by norm_num; omega) (by norm_num; omega) b
  have hmembers := readMembers_bytes hw
  have hdrop : (programmeBytes p).drop 23 = p.members.flatMap fun m => beBytes 1 m.channel.val ++ beBytes 1 m.weight :=
    List.drop_left' (by simp)
  have hbytes : programmeBytes p = beBytes 1 (128 + p.members.length * 8) ++ (beSigned 2 p.target ++
      (beBytes 1 (controlCode p.mode) ++ (beBytes 1 p.strength ++ (beBytes 1 p.deadband ++ (beBytes 1 p.boostMax ++
      (beBytes 1 p.cutMax ++ (beBytes 2 p.interval ++ (beSigned 2 p.trim ++ (beBytes 2 p.dt ++
      (beBytes 1 (moveModeCode p.moveMode) ++ (beBytes 2 p.slewInterval ++ (beSigned 2 p.offset ++ (beSigned 2 p.absGate ++
      (beBytes 2 p.gateDepth ++ p.members.flatMap fun m => beBytes 1 m.channel.val ++ beBytes 1 m.weight)))))))))))))) := by
    simp only [programmeBytes, List.append_assoc]
  unfold readProgramme
  rw [hdrop, hmembers, hbytes]
  simp (disch := simp) only [byteAt_head, byteAt_append_past, fieldAt_append_past, signedAt_append_past, beBytes_length,
    beSigned_length, Nat.reduceSub, fieldAt_head,
    Nat.mod_eq_of_lt (show 128 + p.members.length * 8 < 256 by omega),
    Nat.mod_eq_of_lt (controlCode_lt p.mode), Nat.mod_eq_of_lt (moveModeCode_lt p.moveMode),
    Nat.mod_eq_of_lt (show p.strength < 256 by omega), Nat.mod_eq_of_lt (show p.deadband < 256 by omega),
    Nat.mod_eq_of_lt (show p.boostMax < 256 by omega), Nat.mod_eq_of_lt (show p.cutMax < 256 by omega),
    Nat.mod_eq_of_lt (show p.interval < 256 ^ 2 by omega), Nat.mod_eq_of_lt (show p.dt < 256 ^ 2 by omega),
    Nat.mod_eq_of_lt (show p.slewInterval < 256 ^ 2 by omega), Nat.mod_eq_of_lt (show p.gateDepth < 256 ^ 2 by omega),
    hsigned (show -32768 ≤ p.target by omega) (by omega), hsigned (show -32768 ≤ p.trim by omega) (by omega),
    hsigned (show -32768 ≤ p.offset by omega) (by omega), hsigned (show -32768 ≤ p.absGate by omega) (by omega),
    controlOf_controlCode, moveModeOf_moveModeCode]
  rw [if_neg (by omega), if_pos h]

theorem readRegion_none : readRegion (beBytes 2 0 ++ beBytes 2 0) = some none := by
  unfold readRegion
  rw [fieldAt_head, fieldAt_append_past (by simp), beBytes_length, fieldAt_all]
  exact if_pos (Nat.zero_mod _)

theorem readRegion_bytes {r : Region} (h : r.base ≤ 1023 ∧ 1 ≤ r.count ∧ r.count ≤ 1024 ∧ r.base + r.count ≤ 1024) :
    readRegion (beBytes 2 r.base ++ beBytes 2 r.count) = some (some r) := by
  obtain ⟨hbase, hpos, hcount, hsum⟩ := h
  unfold readRegion
  rw [fieldAt_head, fieldAt_append_past (by simp), beBytes_length, fieldAt_all,
    Nat.mod_eq_of_lt (show r.base < 256 ^ 2 by omega), Nat.mod_eq_of_lt (show r.count < 256 ^ 2 by omega)]
  simp only
  rw [if_neg (by omega), if_pos ⟨hbase, hcount, hsum⟩]

theorem readLinkConfig_bytes {c : LinkConfig} (h : 8 ≤ c.gp ∧ c.gp ≤ 16 ∧ 14 ≤ c.gi ∧ c.gi ≤ 22) :
    readLinkConfig [BitVec.ofNat 8 (modeCode c.mode), BitVec.ofNat 8 c.gp, BitVec.ofNat 8 c.gi] = some c := by
  obtain ⟨mode, gp, gi⟩ := c
  have hrange := h
  dsimp only at hrange
  have hmode : byteAt [BitVec.ofNat 8 (modeCode mode), BitVec.ofNat 8 gp, BitVec.ofNat 8 gi] 0 = modeCode mode := by
    cases mode <;> rfl
  have hgp : byteAt [BitVec.ofNat 8 (modeCode mode), BitVec.ofNat 8 gp, BitVec.ofNat 8 gi] 1 = gp := by
    simp [byteAt]; omega
  have hgi : byteAt [BitVec.ofNat 8 (modeCode mode), BitVec.ofNat 8 gp, BitVec.ofNat 8 gi] 2 = gi := by
    simp [byteAt]; omega
  unfold readLinkConfig
  rw [hmode, hgp, hgi]
  simp only
  rw [if_pos h]
  cases mode <;> rfl

theorem readSelect_bytes {e : SelectEntry} (h : ratioLow ≤ e.bound ∧ e.bound ≤ ratioHigh) :
    readSelect (BitVec.ofNat 8 e.set.val :: beBytes 4 e.bound) = some (some e) := by
  obtain ⟨set, bound⟩ := e
  have hset := set.isLt
  have hbound : fieldAt (BitVec.ofNat 8 set.val :: beBytes 4 bound) 1 4 = bound := by
    have hskip : fieldAt (BitVec.ofNat 8 set.val :: beBytes 4 bound) 1 4 = fieldAt (beBytes 4 bound) 0 4 := rfl
    rw [hskip, fieldAt_all]
    exact Nat.mod_eq_of_lt (lt_of_le_of_lt h.2 (by decide))
  have hbyte : byteAt (BitVec.ofNat 8 set.val :: beBytes 4 bound) 0 = set.val := by
    simp [byteAt]; omega
  unfold readSelect
  simp only [hbound, hbyte]
  rw [if_neg (by omega), dif_pos hset, if_pos h]

theorem readFilter_bytes {v : Int} (h : within (-524288) 524287 v = true) : readFilter (beSigned 3 v) = some v := by
  have hrange := h
  simp only [within, decide_eq_true_eq] at hrange
  unfold readFilter
  rw [signedAt_all (by norm_num; omega) (by norm_num; omega)]
  exact if_pos h

theorem readWeighting_bytes {v : Int} (h : within (-8388608) 8388607 v = true) : readWeighting (beSigned 3 v) = some v := by
  simp only [within, decide_eq_true_eq] at h
  unfold readWeighting
  rw [signedAt_all (by norm_num; omega) (by norm_num; omega)]

theorem readOutput_bytes (c : ChannelId) : readOutput [BitVec.ofNat 8 c.val] = some (some c) := by
  have hc := c.isLt
  have hbyte : byteAt [BitVec.ofNat 8 c.val] 0 = c.val := by simp [byteAt]; omega
  unfold readOutput
  simp only [hbyte]
  rw [if_neg (by omega), dif_pos hc]

/-- A record that its table accepts reads back from its bytes (section 11.5). -/
theorem readRecord_recordBytes {r : Record} (h : r.valid = true) : readRecord r.table (recordBytes r) = some r := by
  cases r with
  | slotMap e => exact congrArg (Option.map Record.slotMap) (readSlotEntry_bytes (of_decide_eq_true h))
  | outputMap o =>
    cases o with
    | none => rfl
    | some c => exact congrArg (Option.map Record.outputMap) (readOutput_bytes c)
  | programme p =>
    cases p with
    | none => rfl
    | some p => exact congrArg (Option.map Record.programme) (readProgramme_programmeBytes h)
  | region g =>
    cases g with
    | none =>
      dsimp only [readRecord, Record.table, recordBytes]
      rw [readRegion_none, Option.map_some]
    | some g => exact congrArg (Option.map Record.region) (readRegion_bytes (of_decide_eq_true h))
  | linkConfig c => exact congrArg (Option.map Record.linkConfig) (readLinkConfig_bytes (of_decide_eq_true h))
  | filter v => exact congrArg (Option.map Record.filter) (readFilter_bytes h)
  | select e =>
    cases e with
    | none => rfl
    | some e => exact congrArg (Option.map Record.select) (readSelect_bytes (of_decide_eq_true h))
  | weighting v => exact congrArg (Option.map Record.weighting) (readWeighting_bytes h)
  | alarmRule r => exact congrArg (Option.map Record.alarmRule) (readRule_ruleBytes h)

theorem recordBytes_length {r : Record} (h : r.table ≠ .programmes) : (recordBytes r).length = recordSize r.table := by
  cases r with
  | programme p => exact absurd (by rfl) h
  | outputMap o => cases o <;> simp [recordBytes, Record.table, recordSize]
  | region g => cases g <;> simp [recordBytes, Record.table, recordSize]
  | select e => cases e <;> simp [recordBytes, Record.table, recordSize]
  | filter v => exact beSigned_length 3 v
  | weighting v => exact beSigned_length 3 v
  | alarmRule r => simp [recordBytes, ruleBytes, Record.table, recordSize]
  | slotMap e => simp [recordBytes, Record.table, recordSize]
  | linkConfig c => simp [recordBytes, Record.table, recordSize]

/-! ### Context records (section 11.7) -/

/-- The fields of a context record fit the widths of its table (R185). -/
def Context.Fits (c : Context) : Prop :=
  c.members < 2 ^ 4 ∧ c.sum < 2 ^ 58 ∧ c.count < 2 ^ 16 ∧ c.p1 < 2 ^ 42 ∧ c.p2 < 2 ^ 42 ∧ c.p3 < 2 ^ 42 ∧ c.p4 < 2 ^ 42 ∧
    c.pair < 2 ^ 17

/-- A field above k bits is what is left when they are shifted out. -/
theorem shift_out {a b : Nat} {k : Nat} (hb : b < 2 ^ k) : (a * 2 ^ k + b) / 2 ^ k = a := by
  rw [Nat.mul_comm, Nat.mul_add_div (Nat.two_pow_pos k), Nat.div_eq_of_lt hb, Nat.add_zero]

/-- The number that a context record spells, with its present flag, as a chain of fields (R185). -/
def contextNumber (c : Context) : Nat :=
  (((((((1 * 2 ^ 4 + c.members) * 2 ^ 58 + c.sum) * 2 ^ 16 + c.count) * 2 ^ 42 + c.p1) * 2 ^ 42 + c.p2) * 2 ^ 42 + c.p3) *
    2 ^ 42 + c.p4) * 2 ^ 17 + c.pair

theorem contextBytes_eq (c : Context) : contextBytes c = beBytes 33 (contextNumber c) := by
  have hflag : (2 : Nat) ^ 263 = 2 ^ 7 * 2 ^ 256 := (pow_add 2 7 256).symm
  have hmembers : (2 : Nat) ^ 259 = 2 ^ 3 * 2 ^ 256 := (pow_add 2 3 256).symm
  unfold contextBytes contextNumber
  rw [hflag, hmembers]
  refine congrArg (beBytes 33) ?_
  ring

theorem contextNumber_lt {c : Context} (h : c.Fits) : contextNumber c < 256 ^ 33 := by
  obtain ⟨hm, hs, hc, h1, h2, h3, h4, hp⟩ := h
  unfold contextNumber
  norm_num at *
  omega

theorem readContext_contextBytes {c : Context} (h : c.Fits) : readContext (contextBytes c) = c := by
  have hnumber : fromBytes (contextBytes c) = contextNumber c := by
    rw [contextBytes_eq, fromBytes_beBytes, Nat.mod_eq_of_lt (contextNumber_lt h)]
  obtain ⟨hm, hs, hc, h1, h2, h3, h4, hp⟩ := h
  have hfield {a b k : Nat} (hb : b < 2 ^ k) : (a * 2 ^ k + b) % 2 ^ k = b := by
    rw [Nat.mul_comm, Nat.mul_add_mod, Nat.mod_eq_of_lt hb]
  have hshift (k : Nat) (n j : Nat) : n / 2 ^ (j + k) = n / 2 ^ j / 2 ^ k := by rw [Nat.div_div_eq_div_mul, pow_add]
  unfold readContext
  rw [hnumber]
  unfold contextNumber
  simp only [hshift 42 _ 17, hshift 42 _ 59, hshift 42 _ 101, hshift 42 _ 143, hshift 16 _ 185, hshift 58 _ 201,
    shift_out hp, shift_out h4, shift_out h3, shift_out h2, shift_out h1, shift_out hc, shift_out hs, hfield hm, hfield hs,
    hfield hc, hfield h1, hfield h2, hfield h3, hfield h4, hfield hp]

theorem pairTarget_gainPair {g a : Int} (hg : -240 ≤ g) (hg' : g ≤ 120) (ha : -240 ≤ a) (ha' : a ≤ 120) :
    pairTarget (gainPair g a) = g ∧ gainPair g a ≤ 130320 := by
  unfold pairTarget gainPair
  omega

/-- Settles O51: each layout lays its fields one after another at fixed widths, so each field reads back. -/
theorem frameAndRecordRoundTrips : Obligations.FrameAndRecordRoundTrips := by
  refine ⟨fun f hf => ?_, fun r hr => ⟨readRecord_recordBytes hr, recordBytes_length⟩,
    fun c hm hs hc h1 h2 h3 h4 hp => ⟨?_, readContext_contextBytes ⟨hm, hs, hc, h1, h2, h3, h4, hp⟩⟩,
    fun g a hg hg' ha ha' => pairTarget_gainPair hg hg' ha ha'⟩
  · have hslots : f.slots.length = 16 := beq_iff_eq.1 hf
    exact ⟨by rw [frameCells, List.length_append, coveredCells_length hslots]; rfl, readFrame_frameCells hslots,
      evenParity_setParity f⟩
  · rw [contextBytes_eq, beBytes_length]

end Sys2Proof.Machine
end

section
/-! PROOF. The integrator's reset and the context commands (O43, O44). -/

namespace Sys2Proof.Machine

/-! ### RESET INTEGRATOR (R95) -/

theorem State.resetIntegrator_eq (s : State) (p : ProgId) :
    s.resetIntegrator [BitVec.ofNat 8 p.val] =
      if s.record p = none then (s, [9#8])
      else (s.setLoud p { s.loud[p] with sum := 0, count := 0 },
        [0#8, BitVec.ofNat 8 p.val] ++ beBytes 8 s.loud[p].sum ++ beBytes 2 s.loud[p].count) := by
  unfold State.resetIntegrator
  rw [if_neg (by simp)]
  simp only [byteAt_progByte, prog_not_above_seven, progOf_val, State.present, if_false]
  cases s.record p with
  | none => rfl
  | some r =>
    simp only [Option.isSome_some, Bool.not_true, Bool.false_eq_true, if_false, reduceCtorEq]
    rw [beBytes_one]
    rfl

/-! ### READ CONTEXT (R96) -/

theorem contextOf_absent {s : State} {p : ProgId} (h : s.record p = none) : s.contextOf p = [0#8] := by
  unfold State.contextOf
  rw [h]

theorem contextOf_present {s : State} {p : ProgId} {r : ProgRecord} (h : s.record p = some r) :
    s.contextOf p = contextBytes
      { members := r.members.length, sum := s.loud[p].sum, count := s.loud[p].count,
        p1 := s.loud[p].history.getD 0 0, p2 := s.loud[p].history.getD 1 0, p3 := s.loud[p].history.getD 2 0,
        p4 := s.loud[p].history.getD 3 0,
        pair := ((s.gain[p].tgt + 240) * 361 + (s.gain[p].app + 240)).toNat } := by
  unfold State.contextOf
  rw [h]
  rfl

theorem contextBytes_length (c : Context) : (contextBytes c).length = 33 := by rw [contextBytes_eq, beBytes_length]

theorem contextOf_length_present {s : State} {p : ProgId} (h : s.record p ≠ none) : (s.contextOf p).length = 33 := by
  obtain ⟨r, hr⟩ := Option.ne_none_iff_exists'.1 h
  rw [contextOf_present hr, contextBytes_length]

theorem contextOf_length_le (s : State) (p : ProgId) : (s.contextOf p).length ≤ 33 := by
  by_cases h : s.record p = none
  · rw [contextOf_absent h]; decide
  · exact (contextOf_length_present h).le

/-- The records for n down to 0, as one list (R96). -/
theorem contextsFrom_eq (s : State) : ∀ n : Nat,
    s.contextsFrom n = ((List.range (n + 1)).reverse.map fun k => s.contextOf (Fin.ofNat 8 k)).flatten
  | 0 => by simp [State.contextsFrom, progOf]
  | n + 1 => by
    rw [List.range_succ, List.reverse_append, List.map_append, List.flatten_append, ← contextsFrom_eq s n]
    simp [State.contextsFrom, progOf]

theorem contextsFrom_length_le (s : State) : ∀ n : Nat, (s.contextsFrom n).length ≤ 33 * (n + 1)
  | 0 => contextOf_length_le s _
  | n + 1 => by
    have hhead := contextOf_length_le s (progOf (n + 1))
    have htail := contextsFrom_length_le s n
    rw [State.contextsFrom, List.length_append]
    omega

/-- An absent programme leaves room: its record is one byte (R96). -/
theorem contextsFrom_length_absent {s : State} {q : ProgId} (hq : s.record q = none) : ∀ n : Nat, q.val ≤ n → n < 8 →
    (s.contextsFrom n).length ≤ 33 * n + 1
  | 0, hn, _ => by
    have hzero : progOf 0 = q := Fin.ext (by simp [progOf]; omega)
    rw [State.contextsFrom, hzero, contextOf_absent hq]
    exact le_refl 1
  | n + 1, hn, h8 => by
    rw [State.contextsFrom, List.length_append]
    by_cases hlast : q.val = n + 1
    · have hprog : progOf (n + 1) = q := by rw [← hlast, progOf_val]
      have htail := contextsFrom_length_le s n
      rw [hprog, contextOf_absent hq, List.length_singleton]
      omega
    · have hhead := contextOf_length_le s (progOf (n + 1))
      have htail := contextsFrom_length_absent hq n (by omega) (by omega)
      omega

theorem contextsFrom_length_full {s : State} (h : ∀ q : ProgId, s.record q ≠ none) : ∀ n : Nat,
    (s.contextsFrom n).length = 33 * (n + 1)
  | 0 => contextOf_length_present (h _)
  | n + 1 => by
    rw [State.contextsFrom, List.length_append, contextOf_length_present (h _), contextsFrom_length_full h n]
    omega

/-- The records do not fit exactly when all eight programmes are present and n is 7 (R96). -/
theorem contexts_overflow_iff (s : State) (p : ProgId) :
    246 < (s.contextsFrom p.val).length ↔ p.val = 7 ∧ ∀ q : ProgId, s.record q ≠ none := by
  have hp := p.isLt
  have hle := contextsFrom_length_le s p.val
  constructor
  · intro hover
    have hseven : p.val = 7 := by omega
    refine ⟨hseven, fun q hq => ?_⟩
    have habsent := contextsFrom_length_absent hq p.val (by omega) hp
    omega
  · rintro ⟨hseven, hall⟩
    rw [contextsFrom_length_full hall]
    omega

theorem State.readContexts_eq (s : State) (p : ProgId) :
    s.readContexts [BitVec.ofNat 8 p.val] =
      if 246 < (s.contextsFrom p.val).length then (s, [9#8])
      else (s, [0#8, BitVec.ofNat 8 (p.val + 1)] ++ s.contextsFrom p.val) := by
  unfold State.readContexts
  rw [if_neg (by simp), byteAt_progByte, if_neg (prog_not_above_seven p), beBytes_one]
  rfl

/-- Settles O43: the integrator is cleared alone, and the records fit unless all eight are present ones. -/
theorem resetIntegratorAndReadContext : Obligations.ResetIntegratorAndReadContext := by
  refine ⟨fun s m rest p a h ha hm => ⟨fun hp => ?_, fun hp => ?_⟩, fun s m rest p a h ha hm => ⟨fun q => ⟨contextOf_absent,
    fun r hr => ⟨contextOf_length_present (by rw [hr]; exact nofun), contextOf_present hr⟩⟩, fun hover => ?_, fun hfits => ?_⟩⟩
  · refine congrArg Host.Outcome.next (exec_of_ready h rfl ?_)
    subst ha
    rw [hm, State.resetIntegrator_eq]
    exact if_neg hp
  · refine congrArg Host.Outcome.next (exec_of_ready h rfl ?_)
    subst ha
    rw [hm, State.resetIntegrator_eq]
    exact if_pos hp
  · refine congrArg Host.Outcome.next (exec_of_ready h rfl ?_)
    subst ha
    rw [hm, State.readContexts_eq]
    exact if_pos ((contexts_overflow_iff (s.takeCommand rest) p).2 hover)
  · refine congrArg Host.Outcome.next (exec_of_ready h rfl ?_)
    subst ha
    rw [hm, State.readContexts_eq, if_neg fun hlt => hfits ((contexts_overflow_iff (s.takeCommand rest) p).1 hlt),
      contextsFrom_eq]
    rfl

/-! ### The records of LOAD CONTEXT (R182) -/

/-- The bytes of one record of LOAD CONTEXT: one with a clear present flag, or a present one (R182). -/
def contextPiece : Sum Byte Context → List Byte
  | .inl b => [b]
  | .inr c => contextBytes c

/-- A record is one that the layout can carry: a clear flag in its one byte, or fields that fit. -/
def ContextSound : Sum Byte Context → Prop
  | .inl b => b.toNat < 128
  | .inr c => c.Fits

/-- A present record's first byte carries its present flag and its member count (R185). -/
theorem contextBytes_head {c : Context} (h : c.Fits) :
    ∃ (b : Byte) (tail : List Byte), contextBytes c = b :: tail ∧ tail.length = 32 ∧ 128 ≤ b.toNat ∧
      memberCount b = c.members := by
  obtain ⟨hm, hs, hc, h1, h2, h3, h4, hp⟩ := h
  have hbyte : contextNumber c / 256 ^ 32 = 128 + c.members * 8 + c.sum / 2 ^ 55 := by
    unfold contextNumber
    norm_num at *
    omega
  have hsum : c.sum / 2 ^ 55 < 8 := by omega
  refine ⟨BitVec.ofNat 8 (contextNumber c / 256 ^ 32), beBytes 32 (contextNumber c), contextBytes_eq c, beBytes_length _ _,
    ?_, ?_⟩
  · rw [BitVec.toNat_ofNat, hbyte]; omega
  · unfold memberCount
    rw [BitVec.toNat_ofNat, hbyte]
    omega

/-- A sound record stands first: its first byte gives its size. -/
theorem contextPiece_head {x : Sum Byte Context} (h : ContextSound x) :
    ∃ (b : Byte) (tail : List Byte), contextPiece x = b :: tail ∧ contextSize b = tail.length + 1 := by
  cases x with
  | inl b => exact ⟨b, [], rfl, if_pos h⟩
  | inr c =>
    obtain ⟨b, tail, hbytes, hlen, hflag, -⟩ := contextBytes_head h
    exact ⟨b, tail, hbytes, by rw [contextSize, if_neg (by omega), hlen]⟩

/-- Cutting at a sound record leaves it whole and goes on behind it. -/
theorem cutRecords_piece {x : Sum Byte Context} (h : ContextSound x) (fuel position : Nat) (tail : List Byte) :
    (∀ rs, cutRecords contextSize fuel (position + 1) tail = .records rs →
      cutRecords contextSize (fuel + 1) position (contextPiece x ++ tail) = .records (contextPiece x :: rs)) ∧
    (cutRecords contextSize fuel (position + 1) tail = .badLength →
      cutRecords contextSize (fuel + 1) position (contextPiece x ++ tail) = .badLength) := by
  obtain ⟨b, rest, hpiece, hsize⟩ := contextPiece_head h
  rw [hpiece, List.cons_append, cutRecords, if_neg (by omega), if_neg (by rw [hsize]; simp)]
  have hdrop : (b :: (rest ++ tail)).drop (contextSize b) = tail := by
    rw [hsize, List.drop_succ_cons]
    exact List.drop_left' rfl
  have htake : (b :: (rest ++ tail)).take (contextSize b) = b :: rest := by
    rw [hsize, List.take_succ_cons, List.take_left' rfl]
  rw [hdrop, htake]
  exact ⟨fun rs hcut => by rw [hcut], fun hcut => by rw [hcut]⟩

theorem contextPiece_length_pos {x : Sum Byte Context} (h : ContextSound x) : 1 ≤ (contextPiece x).length := by
  obtain ⟨b, tail, hpiece, -⟩ := contextPiece_head h
  rw [hpiece]
  exact Nat.succ_le_succ (Nat.zero_le _)

/-- Sound records laid one after another are cut into themselves. -/
theorem cutRecords_pieces : ∀ (rs : List (Sum Byte Context)) (fuel position : Nat), (∀ x ∈ rs, ContextSound x) →
    (rs.flatMap contextPiece).length ≤ fuel →
    cutRecords contextSize fuel position (rs.flatMap contextPiece) = .records (rs.map contextPiece)
  | [], fuel, position, _, _ => by cases fuel <;> rfl
  | x :: rs, fuel, position, hsound, hfuel => by
    have hx := hsound x List.mem_cons_self
    have hpos := contextPiece_length_pos hx
    rw [List.flatMap_cons, List.length_append] at hfuel
    obtain ⟨k, rfl⟩ : ∃ k, fuel = k + 1 := ⟨fuel - 1, by omega⟩
    rw [List.flatMap_cons, List.map_cons]
    exact (cutRecords_piece hx k position _).1 _
      (cutRecords_pieces rs k (position + 1) (fun y hy => hsound y (List.mem_cons_of_mem x hy)) (by omega))

/-- A part of a present record behind sound ones ends the cutting inside it. -/
theorem cutRecords_short {c : Context} (hc : c.Fits) {n : Nat} (h1 : 1 ≤ n) (h32 : n ≤ 32) :
    ∀ (rs : List (Sum Byte Context)) (fuel position : Nat), (∀ x ∈ rs, ContextSound x) →
    (rs.flatMap contextPiece ++ (contextBytes c).take n).length ≤ fuel →
    cutRecords contextSize fuel position (rs.flatMap contextPiece ++ (contextBytes c).take n) = .badLength
  | [], fuel, position, _, hfuel => by
    obtain ⟨b, tail, hbytes, hlen, hflag, -⟩ := contextBytes_head hc
    obtain ⟨k, rfl⟩ : ∃ k, n = k + 1 := ⟨n - 1, by omega⟩
    rw [hbytes, List.flatMap_nil, List.nil_append, List.take_succ_cons] at hfuel ⊢
    have hsize : contextSize b = 33 := if_neg (by omega)
    cases fuel with
    | zero => cases hfuel
    | succ fuel =>
      rw [cutRecords, hsize, if_neg (by decide), if_pos (by rw [List.length_cons, List.length_take]; omega)]
  | x :: rs, fuel, position, hsound, hfuel => by
    have hx := hsound x List.mem_cons_self
    have hpos := contextPiece_length_pos hx
    rw [List.flatMap_cons, List.append_assoc, List.length_append] at hfuel
    obtain ⟨k, rfl⟩ : ∃ k, fuel = k + 1 := ⟨fuel - 1, by omega⟩
    rw [List.flatMap_cons, List.append_assoc]
    exact (cutRecords_piece hx k position _).2
      (cutRecords_short hc h1 h32 rs k (position + 1) (fun y hy => hsound y (List.mem_cons_of_mem x hy)) (by omega))

/-- The check of the member counts finds a present record outside 1 to 8 (R182). -/
theorem badContext_iff {rs : List (Sum Byte Context)} (h : ∀ x ∈ rs, ContextSound x) :
    badContext (rs.map contextPiece) = true ↔ ∃ c : Context, Sum.inr c ∈ rs ∧ ¬ (1 ≤ c.members ∧ c.members ≤ 8) := by
  unfold badContext
  rw [List.any_eq_true]
  constructor
  · rintro ⟨bs, hbs, hbad⟩
    obtain ⟨x, hx, rfl⟩ := List.mem_map.1 hbs
    cases x with
    | inl b =>
      have hb : b.toNat < 128 := h _ hx
      simp only [contextPiece, Bool.and_eq_true, decide_eq_true_eq] at hbad
      omega
    | inr c =>
      obtain ⟨b, tail, hbytes, -, -, hcount⟩ := contextBytes_head (h _ hx)
      simp only [contextPiece, hbytes, hcount, Bool.and_eq_true, Bool.or_eq_true, beq_iff_eq, decide_eq_true_eq] at hbad
      exact ⟨c, hx, by omega⟩
  · rintro ⟨c, hc, hbad⟩
    refine ⟨contextBytes c, List.mem_map.2 ⟨_, hc, rfl⟩, ?_⟩
    obtain ⟨b, tail, hbytes, -, hflag, hcount⟩ := contextBytes_head (h _ hc)
    simp only [hbytes, hcount, Bool.and_eq_true, Bool.or_eq_true, beq_iff_eq, decide_eq_true_eq]
    omega

/-! ### What LOAD CONTEXT does (R97, R116) -/

/-- The context that a list of k records gives to a programme: record k − 1 − p (R97). -/
def contextFor (rs : List (Sum Byte Context)) (p : ProgId) : Option Context :=
  if p.val < rs.length then
    match rs[rs.length - 1 - p.val]? with
    | some (.inr c) => some c
    | _ => none
  else none

theorem contextFor_last {x : Sum Byte Context} {rs : List (Sum Byte Context)} {p : ProgId} (h : p.val = rs.length) :
    contextFor (x :: rs) p = x.getRight? := by
  unfold contextFor
  rw [if_pos (by rw [List.length_cons]; omega), List.length_cons,
    show rs.length + 1 - 1 - p.val = 0 by omega, List.getElem?_cons_zero]
  cases x <;> rfl

theorem contextFor_rest {x : Sum Byte Context} {rs : List (Sum Byte Context)} {p : ProgId} (h : p.val ≠ rs.length) :
    contextFor (x :: rs) p = contextFor rs p := by
  unfold contextFor
  by_cases hp : p.val < rs.length
  · rw [if_pos (by rw [List.length_cons]; omega), if_pos hp, List.length_cons,
      show rs.length + 1 - 1 - p.val = rs.length - 1 - p.val + 1 by omega, List.getElem?_cons_succ]
  · rw [if_neg (by rw [List.length_cons]; omega), if_neg hp]

theorem contextFor_beyond {rs : List (Sum Byte Context)} {p : ProgId} (h : rs.length ≤ p.val) : contextFor rs p = none :=
  if_neg (Nat.not_lt.2 h)

/-- A count goes up by one when one more item of a list without repeats is counted. -/
theorem filter_length_insert {α : Type} {f g : α → Bool} {a : α} (hf : f a = false) (hg : g a = true)
    (h : ∀ x, x ≠ a → g x = f x) : ∀ {l : List α}, l.Nodup → a ∈ l → (l.filter g).length = (l.filter f).length + 1
  | x :: l, hn, ha => by
    rw [List.nodup_cons] at hn
    rcases List.mem_cons.1 ha with rfl | hm
    · have hsame : l.filter g = l.filter f :=
        List.filter_congr fun y hy => h y fun e => hn.1 (e ▸ hy)
      rw [List.filter_cons_of_pos hg, List.filter_cons_of_neg (by rw [hf]; exact nofun), hsame, List.length_cons]
    · have hx : g x = f x := h x fun e => hn.1 (e ▸ hm)
      have ih := filter_length_insert hf hg h hn.2 hm
      cases hfx : f x with
      | true => rw [List.filter_cons_of_pos (hx.trans hfx), List.filter_cons_of_pos hfx, List.length_cons, ih, List.length_cons]
      | false =>
        rw [List.filter_cons_of_neg (by rw [hx, hfx]; exact nofun), List.filter_cons_of_neg (by rw [hfx]; exact nofun), ih]

/-- How many programmes a list of records gives a context that passes a test. -/
def contextCount (f : ProgId → Context → Bool) (rs : List (Sum Byte Context)) : Nat :=
  (allProgs.filter fun p => (contextFor rs p).any (f p)).length

theorem contextCount_nil (f : ProgId → Context → Bool) : contextCount f [] = 0 := by
  unfold contextCount
  rw [List.filter_eq_nil_iff.2 (fun p _ => by rw [contextFor_beyond (Nat.zero_le _)]; exact nofun)]
  rfl

/-- One more record counts for the programme of its place. -/
theorem contextCount_cons (f : ProgId → Context → Bool) (x : Sum Byte Context) {rs : List (Sum Byte Context)}
    (h : rs.length < 8) :
    contextCount f (x :: rs) = contextCount f rs + if x.getRight?.any (f (progOf rs.length)) then 1 else 0 := by
  have hval : (progOf rs.length).val = rs.length := Nat.mod_eq_of_lt h
  have hother (p : ProgId) (hp : p ≠ progOf rs.length) : contextFor (x :: rs) p = contextFor rs p :=
    contextFor_rest fun e => hp (Fin.ext (e.trans hval.symm))
  have hlast : contextFor (x :: rs) (progOf rs.length) = x.getRight? := contextFor_last hval
  have hbefore : contextFor rs (progOf rs.length) = none := contextFor_beyond hval.ge
  unfold contextCount
  split
  · next hany =>
    refine filter_length_insert (a := progOf rs.length) ?_ ?_ (fun p hp => ?_) (List.nodup_finRange 8) (List.mem_finRange _)
    · rw [hbefore]; rfl
    · rw [hlast]; exact hany
    · rw [hother p hp]
  · next hany =>
    refine congrArg List.length (List.filter_congr fun p _ => ?_)
    by_cases hp : p = progOf rs.length
    · subst hp
      rw [hlast, hbefore]
      exact Bool.eq_false_iff.2 hany
    · rw [hother p hp]

/-- The two states hold the same loudness and gain states for a programme. -/
def SameProgramme (s t : State) (p : ProgId) : Prop := t.loud[p] = s.loud[p] ∧ t.gain[p] = s.gain[p]

/-- What applying a context leaves for a programme of an active record (R97, R116). -/
def ContextLoaded (s t : State) (p : ProgId) (c : Context) : Prop :=
  ∀ r : ProgRecord, s.record p = some r → t.loud[p] = loadedLoud c ∧ t.gain[p] = loadGain r (pairTarget c.pair) s.gain[p]

theorem appliesTo_congr {s t : State} (h : t.tables = s.tables) (c : Context) (p : ProgId) :
    t.appliesTo c p = s.appliesTo c p := by
  unfold State.appliesTo
  rw [record_congr h]

theorem sameButLoudGain_tables {s t : State} (h : SameButLoudGain s t) : t.tables = s.tables := by
  obtain ⟨loud, gain, rfl⟩ := h
  rfl

theorem sameButLoudGain_trans {s t u : State} (h : SameButLoudGain s t) (h' : SameButLoudGain t u) : SameButLoudGain s u := by
  obtain ⟨loud, gain, rfl⟩ := h
  obtain ⟨loud', gain', rfl⟩ := h'
  exact ⟨loud', gain', rfl⟩

/-- A context applied changes its programme alone, as R97 and R116 say. -/
theorem applyContext_spec (s : State) (c : Context) (p : ProgId) :
    SameButLoudGain s (s.applyContext c p) ∧ (∀ q, q ≠ p → SameProgramme s (s.applyContext c p) q) ∧
    ContextLoaded s (s.applyContext c p) p c := by
  unfold State.applyContext
  cases hr : s.record p with
  | none => exact ⟨sameButLoudGain_refl s, fun q _ => ⟨rfl, rfl⟩, fun r h => by rw [hr] at h; cases h⟩
  | some r =>
    refine ⟨⟨_, _, rfl⟩, fun q hq => ⟨?_, ?_⟩, fun r' h' => ?_⟩
    · exact State.setLoud_get_ne _ _ _ _ hq
    · exact State.setGain_get_ne _ _ _ _ hq
    · obtain rfl : r = r' := Option.some.inj (hr.symm.trans h')
      exact ⟨State.setLoud_get_self _ _ _, State.setGain_get_self _ _ _⟩

/-- What one record does at its programme (R97): a clear flag nothing, and a present record by whether it applies. -/
theorem loadRecord_piece {a : Loaded} {x : Sum Byte Context} (h : ContextSound x) (p : ProgId) :
    loadRecord a (contextPiece x) p = match x.getRight? with
      | none => a
      | some c => if a.state.appliesTo c p then
          { state := a.state.applyContext c p, applied := a.applied + 1, skipped := a.skipped }
        else { a with skipped := a.skipped + 1 } := by
  cases x with
  | inl b => exact if_pos h
  | inr c =>
    obtain ⟨b, tail, hbytes, -, hflag, -⟩ := contextBytes_head h
    have hhead : byteAt (contextBytes c) 0 = b.toNat := by rw [hbytes]; rfl
    unfold loadRecord
    rw [contextPiece, hhead, if_neg (by omega), readContext_contextBytes h]
    rfl

/-- What one record leaves (R97): its programme as the context says when it applies, all others as they were. -/
theorem loadRecord_spec {a : Loaded} {x : Sum Byte Context} (h : ContextSound x) (p : ProgId) :
    let b := loadRecord a (contextPiece x) p
    SameButLoudGain a.state b.state ∧ (∀ q, q ≠ p → SameProgramme a.state b.state q) ∧
    (x.getRight?.any (a.state.appliesTo · p) = false → SameProgramme a.state b.state p) ∧
    (∀ c, x.getRight? = some c → a.state.appliesTo c p = true → ContextLoaded a.state b.state p c) ∧
    b.applied = a.applied + (if x.getRight?.any (a.state.appliesTo · p) then 1 else 0) ∧
    b.skipped = a.skipped + if x.getRight?.any (fun c => !a.state.appliesTo c p) then 1 else 0 := by
  intro b
  have hb : b = loadRecord a (contextPiece x) p := rfl
  rw [loadRecord_piece h] at hb
  cases hx : x.getRight? with
  | none =>
    rw [hx] at hb
    rw [hb]
    exact ⟨sameButLoudGain_refl _, fun _ _ => ⟨rfl, rfl⟩, fun _ => ⟨rfl, rfl⟩, nofun, rfl, rfl⟩
  | some c =>
    rw [hx] at hb
    dsimp only at hb
    cases happ : a.state.appliesTo c p with
    | true =>
      rw [if_pos happ] at hb
      obtain ⟨hsame, hothers, hloaded⟩ := applyContext_spec a.state c p
      rw [hb]
      refine ⟨hsame, hothers, fun hno => ?_, fun c' hc' _ => ?_, ?_, ?_⟩
      · rw [Option.any_some, happ] at hno
        cases hno
      · obtain rfl := Option.some.inj hc'
        exact hloaded
      · rw [Option.any_some, happ]; rfl
      · rw [Option.any_some, happ]; rfl
    | false =>
      rw [if_neg (by rw [happ]; exact nofun)] at hb
      rw [hb]
      refine ⟨sameButLoudGain_refl _, fun _ _ => ⟨rfl, rfl⟩, fun _ => ⟨rfl, rfl⟩, fun c' hc' happ' => ?_, ?_, ?_⟩
      · obtain rfl := Option.some.inj hc'
        rw [happ] at happ'
        cases happ'
      · rw [Option.any_some, happ]; rfl
      · rw [Option.any_some, happ]; rfl

theorem contextLoaded_congr {s s' t t' : State} {p : ProgId} {c : Context} (hs : s'.tables = s.tables)
    (hg : s'.gain[p] = s.gain[p]) (ht : SameProgramme t t' p) (h : ContextLoaded s' t p c) : ContextLoaded s t' p c := by
  intro r hr
  obtain ⟨hloud, hgain⟩ := h r ((record_congr hs p).trans hr)
  exact ⟨ht.1.trans hloud, ht.2.trans (hgain.trans (by rw [hg]))⟩

/-- What a list of sound records leaves (R97): each programme by the record of its place, and the counts of both kinds. -/
theorem loadRecords_spec : ∀ (rs : List (Sum Byte Context)) (a : Loaded), rs.length ≤ 8 → (∀ x ∈ rs, ContextSound x) →
    let b := loadRecords a (rs.map contextPiece)
    SameButLoudGain a.state b.state ∧
    (∀ p, (contextFor rs p).any (a.state.appliesTo · p) = false → SameProgramme a.state b.state p) ∧
    (∀ p c, contextFor rs p = some c → a.state.appliesTo c p = true → ContextLoaded a.state b.state p c) ∧
    b.applied = a.applied + contextCount (fun p c => a.state.appliesTo c p) rs ∧
    b.skipped = a.skipped + contextCount (fun p c => !a.state.appliesTo c p) rs
  | [], a, _, _ => by
    refine ⟨sameButLoudGain_refl _, fun _ _ => ⟨rfl, rfl⟩, fun p c hc => ?_, ?_, ?_⟩
    · rw [contextFor_beyond (Nat.zero_le _)] at hc
      cases hc
    · rw [contextCount_nil]; rfl
    · rw [contextCount_nil]; rfl
  | x :: rs, a, hlen, hsound => by
    intro b
    have hrs : rs.length < 8 := hlen
    have hval : (progOf rs.length).val = rs.length := Nat.mod_eq_of_lt hrs
    have hsum : b = loadRecords (loadRecord a (contextPiece x) (progOf rs.length)) (rs.map contextPiece) := by
      change loadRecords (loadRecord a (contextPiece x) (progOf (rs.map contextPiece).length)) _ = _
      rw [List.length_map]
    obtain ⟨hone, hothers, hnot, hdone, happlied, hskipped⟩ :=
      loadRecord_spec (a := a) (hsound x List.mem_cons_self) (progOf rs.length)
    obtain ⟨hrest, hrestNot, hrestDone, hrestApplied, hrestSkipped⟩ :=
      loadRecords_spec rs (loadRecord a (contextPiece x) (progOf rs.length)) hrs.le
        fun y hy => hsound y (List.mem_cons_of_mem x hy)
    rw [← hsum] at hrest hrestNot hrestDone hrestApplied hrestSkipped
    generalize loadRecord a (contextPiece x) (progOf rs.length) = m at *
    have htables := sameButLoudGain_tables hone
    have happ (c : Context) (p : ProgId) : m.state.appliesTo c p = a.state.appliesTo c p := appliesTo_congr htables c p
    simp only [happ] at hrestNot hrestDone hrestApplied hrestSkipped
    have hafter : SameProgramme m.state b.state (progOf rs.length) :=
      hrestNot _ (by rw [contextFor_beyond hval.ge]; rfl)
    refine ⟨sameButLoudGain_trans hone hrest, fun p hp => ?_, fun p c hc hcp => ?_, ?_, ?_⟩
    · by_cases hlast : p = progOf rs.length
      · subst hlast
        rw [contextFor_last hval] at hp
        obtain ⟨hloud, hgain⟩ := hnot hp
        exact ⟨hafter.1.trans hloud, hafter.2.trans hgain⟩
      · rw [contextFor_rest fun e => hlast (Fin.ext (e.trans hval.symm))] at hp
        obtain ⟨hloud, hgain⟩ := hrestNot p hp
        obtain ⟨hloud', hgain'⟩ := hothers p hlast
        exact ⟨hloud.trans hloud', hgain.trans hgain'⟩
    · by_cases hlast : p = progOf rs.length
      · subst hlast
        rw [contextFor_last hval] at hc
        exact contextLoaded_congr rfl rfl hafter (hdone c hc hcp)
      · rw [contextFor_rest fun e => hlast (Fin.ext (e.trans hval.symm))] at hc
        exact contextLoaded_congr htables (hothers p hlast).2 ⟨rfl, rfl⟩ (hrestDone p c hc hcp)
    · rw [hrestApplied, happlied, contextCount_cons _ _ hrs]
      omega
    · rw [hrestSkipped, hskipped, contextCount_cons _ _ hrs]
      omega

/-- A context applies exactly when its programme is present with as many members, within the bounds of R97. -/
theorem appliesTo_eq (s : State) (p : ProgId) (c : Context) :
    s.appliesTo c p = match s.record p with
      | some r => decide (r.members.length = c.members ∧ c.sum ≤ c.count * 4260607557632 ∧ c.p1 ≤ 4260607557632 ∧
          c.p2 ≤ 4260607557632 ∧ c.p3 ≤ 4260607557632 ∧ c.p4 ≤ 4260607557632)
      | none => false := by
  unfold State.appliesTo
  cases s.record p with
  | none => rfl
  | some r =>
    rw [Bool.eq_iff_iff]
    simp only [contextInBounds, Bool.and_eq_true, beq_iff_eq, Bool.or_eq_true, bne_iff_ne, ne_eq, decide_eq_true_eq]
    simp only [largestPower]
    constructor
    · rintro ⟨hm, ⟨⟨⟨⟨-, hs⟩, h1⟩, h2⟩, h3⟩, h4⟩
      exact ⟨hm.symm, hs, h1, h2, h3, h4⟩
    · rintro ⟨hm, hs, h1, h2, h3, h4⟩
      refine ⟨hm.symm, ⟨⟨⟨⟨?_, hs⟩, h1⟩, h2⟩, h3⟩, h4⟩
      by_cases hc : c.count = 0
      · right
        rw [hc, Nat.zero_mul] at hs
        omega
      · exact .inl hc

/-- LOAD CONTEXT on records that cut whole and pass the checks (R97, R182). -/
theorem loadContexts_records {s : State} {bs : List Byte} {rs : List (List Byte)}
    (h : cutRecords contextSize bs.length 0 bs = .records rs) :
    s.loadContexts bs =
      if rs = [] ∨ 8 < rs.length then (s, [1#8])
      else if badContext rs then (s, [4#8])
      else ((loadRecords { state := s, applied := 0, skipped := 0 } rs).state,
        [0#8, BitVec.ofNat 8 (loadRecords { state := s, applied := 0, skipped := 0 } rs).applied,
          BitVec.ofNat 8 (loadRecords { state := s, applied := 0, skipped := 0 } rs).skipped]) := by
  unfold State.loadContexts
  rw [h]
  simp only [beBytes_one]
  rfl

theorem loadContexts_badLength {s : State} {bs : List Byte} (h : cutRecords contextSize bs.length 0 bs = .badLength) :
    s.loadContexts bs = (s, [1#8]) := by
  unfold State.loadContexts
  rw [h]
  rfl

/-- Settles O44: the payload is cut into its records, and record j goes to programme k − 1 − j. -/
theorem loadContextAppliesARecord : Obligations.LoadContextAppliesARecord := by
  intro s m rest rs fits bytes sized given applies h hclear hfits
  have hsound : ∀ x ∈ rs, ContextSound x := fun x hx => match x, hx with
    | .inl b, hb => hclear b hb
    | .inr c, hc => hfits c hc
  have hbytes : bytes = rs.flatMap contextPiece :=
    congrArg (rs.flatMap ·) (funext fun x => by cases x <;> rfl)
  have hgiven : given = contextFor rs := by
    funext p
    simp only [given, contextFor] <;> split <;> rfl
  have happlies : applies = fun p c => (s.takeCommand rest).appliesTo c p := by
    funext p c
    rw [appliesTo_eq, State.takeCommand_record] <;> simp only [applies] <;> cases s.record p <;> rfl
  have hcut (hm : m.payload = bytes) : cutRecords contextSize m.payload.length 0 m.payload = .records (rs.map contextPiece) := by
    rw [hm, hbytes]
    exact cutRecords_pieces rs _ 0 hsound le_rfl
  have hnil : rs.map contextPiece = [] ↔ rs = [] := List.map_eq_nil_iff
  have hbad := badContext_iff hsound
  refine ⟨fun hm hlen => ?_, fun c n hc h1 h32 hm => ?_, fun hm hne hlen hsized => ?_, fun hm hne hlen hsized => ?_⟩
  · refine congrArg Host.Outcome.next (exec_of_ready h rfl ?_)
    rw [loadContexts_records (hcut hm), if_pos (by rw [hnil, List.length_map]; exact hlen)]
  · refine congrArg Host.Outcome.next (exec_of_ready h rfl ?_)
    refine loadContexts_badLength ?_
    rw [hm, hbytes]
    exact cutRecords_short hc h1 h32 rs _ 0 hsound le_rfl
  · refine congrArg Host.Outcome.next (exec_of_ready h rfl ?_)
    rw [loadContexts_records (hcut hm), if_neg (by rw [hnil, List.length_map]; exact not_or.2 ⟨hne, Nat.not_lt.2 hlen⟩), if_pos]
    rw [hbad]
    simp only [sized, not_forall] at hsized
    obtain ⟨c, hc, hno⟩ := hsized
    exact ⟨c, hc, hno⟩
  · obtain ⟨hsame, hnot, hdone, happlied, hskipped⟩ :=
      loadRecords_spec rs { state := s.takeCommand rest, applied := 0, skipped := 0 } hlen hsound
    have hrun := loadContexts_records (s := s.takeCommand rest) (hcut hm)
    rw [if_neg (by rw [hnil, List.length_map]; exact not_or.2 ⟨hne, Nat.not_lt.2 hlen⟩), if_neg] at hrun
    case hnc =>
      rw [hbad]
      rintro ⟨c, hc, hno⟩
      exact hno (hsized c hc)
    generalize loadRecords { state := s.takeCommand rest, applied := 0, skipped := 0 } (rs.map contextPiece) = b at *
    have hreply : [0#8, BitVec.ofNat 8 b.applied, BitVec.ofNat 8 b.skipped] =
        [0#8, BitVec.ofNat 8 (allProgs.filter fun p => (given p).any fun c => applies p c).length,
          BitVec.ofNat 8 (allProgs.filter fun p => (given p).any fun c => !applies p c).length] := by
      rw [happlied, hskipped, Nat.zero_add, Nat.zero_add, hgiven, happlies]
      rfl
    rw [hreply] at hrun
    refine ⟨b.state, congrArg Host.Outcome.next (exec_of_ready h rfl hrun), fun p hp => ?_, fun p c hc =>
      ⟨fun hno => ?_, fun r hyes hr => ?_⟩, ?_⟩
    · exact hnot p (by rw [← hgiven, hp]; rfl)
    · refine hnot p ?_
      rw [← hgiven, hc, Option.any_some]
      rw [happlies] at hno
      exact hno
    · rw [happlies] at hyes
      exact hdone p c (by rw [← hgiven, hc]) hyes r hr
    · obtain ⟨loud, gain, heq⟩ := hsame
      rw [heq]

end Sys2Proof.Machine
end

section
/-! PROOF. The reads (section 10.3) and READ ENTRIES: O32, O34, O35. -/

namespace Sys2Proof.Machine

theorem flatMap_congr_fun {α β : Type} {f g : α → List β} (h : ∀ x, f x = g x) (l : List α) : l.flatMap f = l.flatMap g :=
  congrArg (fun k => l.flatMap k) (funext h)

/-! ### READ STATUS (R171, R172) -/

theorem statusFigures_length (s : State) : s.statusFigures.length = 120 := by
  simp [State.statusFigures, timebaseFigures, State.alarmFigures, tableFigures, portFigures, errorBytes, allLinks, allRules,
    List.length_flatMap]

/-- The results of READ STATUS after the command is taken: its own entry has left the command queue. -/
theorem readStatus_noClear (s : State) : s.readStatus [0#8] = (s, 0#8 :: s.statusFigures) := rfl

theorem readStatus_clear (s : State) : s.readStatus [1#8] = (s.clearCounts, 0#8 :: s.statusFigures) := rfl

theorem readStatus_other (s : State) {c : Byte} (h : 1 < c.toNat) : s.readStatus [c] = (s, [4#8]) := by
  have hbyte : byteAt [c] 0 = c.toNat := rfl
  unfold State.readStatus
  rw [if_neg (by simp), hbyte, if_neg (by omega), if_neg (by omega)]
  rfl

theorem clearCounts_links (s : State) (l : LinkId) :
    s.clearCounts.rx[l] = { s.rx[l] with parityErrors := 0, alignErrors := 0 } ∧
    s.clearCounts.cv[l] = { s.cv[l] with slips := 0, saturations := 0 } := by
  constructor
  · exact Vector.getElem_map _ l.isLt
  · exact Vector.getElem_map _ l.isLt

/-- Settles O32: the results field by field, and CLEAR after taking them. -/
theorem readStatusClears : Obligations.ReadStatusClears := by
  intro s m rest h b f up driven e results
  have hholding : s.port.holding = none := h.2.2.1
  have hrx (x : RxState) : (match x with
      | .silent => 0#8
      | .hunting => 1#8
      | .framed => 2#8) = BitVec.ofNat 8 (rxCode x) := by cases x <;> rfl
  have hcv (x : CvState) : (match x with
      | .dark => 0#8
      | .acquiring => 1#8
      | .unsupported => 2#8
      | .locked => 3#8
      | .splicing => 4#8) = BitVec.ofNat 8 (cvCode x) := by cases x <;> rfl
  have hdriven (sev : Severity) : driven sev = if (s.takeCommand rest).lineDriven sev = true then 1 else 0 := by
    have hup : up = fun r => raised s.alarm.rules[r].state := by
      funext r
      simp only [up, raised]
      cases s.alarm.rules[r].state <;> rfl
    simp only [driven, f, hup]
    rfl
  have hresults : results = (s.takeCommand rest).statusFigures := by
    simp only [results, b, f, e, State.statusFigures, timebaseFigures, State.alarmFigures, tableFigures, portFigures, errorBytes,
      List.append_assoc, List.cons_append, List.nil_append, beBytes_one, List.flatMap_cons, List.flatMap_nil,
      show allLinks = [0, 1, 2, 3] from rfl, State.takeCommand_tb, State.takeCommand_rx, State.takeCommand_cv,
      State.takeCommand_tables, State.takeCommand_alarm, State.takeCommand_relay, State.takeCommand_commands,
      State.takeCommand_replies, State.takeCommand_notices, State.takeCommand_noticesLost, State.takeCommand_holding,
      State.takeCommand_assembler, State.takeCommand_errors, hholding, flag, Option.isSome_none, Bool.false_eq_true, if_false,
      List.cons.injEq, List.append_cancel_left_eq, true_and]
    refine ⟨by cases s.tb.ref <;> rfl, rfl, hrx _, hrx _, hrx _, hrx _, hcv _, hcv _, hcv _, hcv _,
      congrArg (BitVec.ofNat 8) ?_, congrArg₂ (· ++ ·) (List.map_congr_left fun r _ => ?_)
        (congrArg₂ List.cons (by cases s.tables.bankState <;> rfl) rfl)⟩
    · simp only [hdriven]
      omega
    · rw [ruleByte]
      refine congrArg (BitVec.ofNat 8) ?_
      rw [Nat.mul_comm]
      refine congrArg₂ (· + ·) rfl ?_
      cases s.alarm.rules[r].state <;> rfl
  refine ⟨by rw [hresults, statusFigures_length], fun hm => ?_, fun hm => ?_, fun c hm hc => ?_⟩
  · refine congrArg Host.Outcome.next (exec_of_ready h rfl ?_)
    rw [hm, hresults, readStatus_noClear]
  · refine ⟨_, congrArg Host.Outcome.next (exec_of_ready h rfl ?_), rfl, clearCounts_links (s.takeCommand rest), rfl, rfl⟩
    rw [hm, hresults, readStatus_clear]
  · refine congrArg Host.Outcome.next (exec_of_ready h rfl ?_)
    rw [hm, readStatus_other _ hc]

/-! ### READ LINK (R173) -/

theorem linkUse_eq (e : SlotEntry) (l : LinkId) :
    linkUse e l = flag (e.primary.any fun x => x.link == l) + 2 * flag (e.backup.any fun x => x.link == l) := by
  unfold linkUse
  cases e.primary <;> cases e.backup <;> rfl

theorem measuredRate_eq (rate96 : Bool) (mode : LinkMode) (c : Conv) :
    measuredRate rate96 mode c =
      if mode = .direct ∧ (c.state = .locked ∨ c.state = .splicing) then houseRate rate96
      else (2 * (c.qInt * houseRate rate96) + 16777216) / 33554432 := by
  unfold measuredRate
  rw [roundDiv_natCast]
  simp only [Bool.and_eq_true, Bool.or_eq_true, beq_iff_eq]

theorem ratioLimit_iff (mode : LinkMode) (c : Conv) :
    ratioLimit mode c = true ↔ (c.state = .locked ∨ c.state = .splicing) ∧ mode = .convert ∧
      (c.qInt = max (c.q0 - 65536) 8388608 ∨ c.qInt = min (c.q0 + 65536) 37748735) := by
  unfold ratioLimit
  simp only [Bool.and_eq_true, Bool.or_eq_true, beq_iff_eq, and_assoc]
  rfl

theorem readLink_ok (s : State) {a : Byte} (h : a.toNat ≤ 3) :
    s.readLink [a] = (s, 0#8 :: s.linkFigures (Fin.ofNat 4 a.toNat)) := by
  have hbyte : byteAt [a] 0 = a.toNat := rfl
  unfold State.readLink
  rw [if_neg (by simp), hbyte, if_neg (by omega)]
  rfl

/-! ### READ SLICE (R175) -/

theorem readSlice_ok (s : State) {a n : Byte} (hn : 1 ≤ n.toNat) (h : a.toNat + n.toNat ≤ 32) :
    s.readSlice [a, n] = (s, 0#8 :: s.sliceFigures a.toNat n.toNat) := by
  have hfirst : byteAt [a, n] 0 = a.toNat := rfl
  have hcount : byteAt [a, n] 1 = n.toNat := rfl
  unfold State.readSlice
  rw [if_neg (by simp), hfirst, hcount, if_neg (by omega)]
  rfl

/-! ### READ PROGRAMME (R174) -/

theorem readProgramme_absent {s : State} {a : Byte} (h : a.toNat ≤ 7) (hr : s.record (Fin.ofNat 8 a.toNat) = none) :
    s.readProgramme [a] = (s, [0#8, BitVec.ofNat 8 (Fin.ofNat 8 a.toNat : ProgId).val, 0#8]) := by
  have hbyte : byteAt [a] 0 = a.toNat := rfl
  have hr' : s.record (progOf a.toNat) = none := hr
  unfold State.readProgramme
  rw [if_neg (by simp)]
  simp only [hbyte, if_neg (show ¬ 7 < a.toNat by omega), hr']
  rw [beBytes_one]
  rfl

theorem readProgramme_present {s : State} {a : Byte} {r : ProgRecord} (h : a.toNat ≤ 7)
    (hr : s.record (Fin.ofNat 8 a.toNat) = some r) :
    s.readProgramme [a] = (if s.loud[(Fin.ofNat 8 a.toNat : ProgId)].history = [] then s.tookFree else s,
      0#8 :: s.programmeFigures (Fin.ofNat 8 a.toNat) r) := by
  have hbyte : byteAt [a] 0 = a.toNat := rfl
  have hr' : s.record (progOf a.toNat) = some r := hr
  unfold State.readProgramme
  rw [if_neg (by simp)]
  simp only [hbyte, if_neg (show ¬ 7 < a.toNat by omega), hr']
  rfl

/-- READ PROGRAMME's results with a latest power in its place. -/
def State.figuresWith (s : State) (p : ProgId) (r : ProgRecord) (power : Nat) : List Byte :=
  beBytes 1 p.val ++ beBytes 1 1 ++ beBytes 1 r.members.length ++
    (r.members.flatMap fun m => beBytes 1 m.channel.val ++ beBytes 1 m.weight) ++
    (beBytes 6 power ++ beBytes 1 s.loud[p].history.length ++ beSigned 2 ((s.windowLevel p).getD noneLevel) ++
      beBytes 1 (match s.loud[p].window with
        | some w => flag w.gatedIn + 2 * flag w.admitted
        | none => 0) ++
      beBytes 8 s.loud[p].sum ++ beBytes 2 s.loud[p].count ++
      beSigned 2 ((integratedLevel s.loud[p].sum s.loud[p].count r.offset).getD noneLevel)) ++
    beBytes 2 (s.lookahead p) ++ (r.members.flatMap fun m => s.memberFigures m.channel) ++ gainFigures r s.gain[p]

theorem programmeFigures_eq (s : State) (p : ProgId) (r : ProgRecord) :
    s.programmeFigures p r = s.figuresWith p r (s.latestPower p) := rfl

theorem memberFigures_length (s : State) (c : ChannelId) : (s.memberFigures c).length = 14 := by
  unfold State.memberFigures
  cases s.regionOf c <;> simp

theorem queueSlot_length (q : List GainEntry) (i : Nat) : (queueSlot q i).length = 6 := by
  unfold queueSlot
  cases q[i]? <;> simp

theorem figuresWith_length (s : State) (p : ProgId) (r : ProgRecord) (power : Nat) :
    (s.figuresWith p r power).length = 69 + 16 * r.members.length := by
  simp [State.figuresWith, gainFigures, List.length_flatMap, memberFigures_length, queueSlot_length]
  omega

theorem byte_of_ofNat {n : Nat} (h : 0 < n) {a : Byte} (ha : a.toNat < n) :
    BitVec.ofNat 8 (@Fin.ofNat n ⟨Nat.ne_of_gt h⟩ a.toNat).val = a := by
  rw [Fin.val_ofNat, Nat.mod_eq_of_lt ha, BitVec.ofNat_toNat, BitVec.setWidth_eq]

/-- Settles O34: the figures field by field in the order of section 11.6. -/
theorem readsChangeNoState : Obligations.ReadsChangeNoState := by
  intro s m rest a b f
  refine ⟨?link, ?slice, ?programme⟩
  case link =>
    intro h hm ha l c mode runs rate use listed results
    have hlen : results.length = 34 + 4 * listed.length := by
      simp [results, List.length_flatMap]
      omega
    have hlisted : listed.length ≤ 32 := (List.length_filter_le _ _).trans List.length_finRange.le
    refine ⟨congrArg Host.Outcome.next (exec_of_ready h rfl ?_), hlen, by omega⟩
    rw [hm, readLink_ok _ ha]
    have hresults : results = (s.takeCommand rest).linkFigures l := by
      have huse (ch : ChannelId) : linkUse s.active.slotMap[ch] l = use ch := linkUse_eq _ _
      have hlistedEq : (allChannels.filter fun ch => decide (linkUse s.active.slotMap[ch] l ≠ 0)) = listed := by
        refine List.filter_congr fun ch _ => ?_
        rw [huse, Bool.eq_iff_iff, decide_eq_true_iff, bne_iff_ne]
      have hfigures : (s.takeCommand rest).linkFigures l = s.linkFigures l := rfl
      have hlimit : (if runs ∧ mode = .convert ∧ (c.qInt = max (c.q0 - 65536) 8388608 ∨ c.qInt = min (c.q0 + 65536) 37748735)
          then 1 else 0) = flag (ratioLimit mode c) := by
        unfold flag
        exact if_congr (ratioLimit_iff mode c).symm rfl rfl
      have hentry (ch : ChannelId) : s.linkEntry l ch = [b ch.val, b (use ch), BitVec.ofNat 8 (sourceCode s.sources[ch]),
          BitVec.ofNat 8 (match s.switchingRule ch with
            | some r => r.val
            | none => 255)] := by
        rw [State.linkEntry, huse]
        simp only [beBytes_one]
        rfl
      rw [hfigures, State.linkFigures, hlistedEq, flatMap_congr_fun hentry]
      simp only [results, hlimit, beBytes_one, List.append_assoc, List.cons_append, List.nil_append, measuredRate_eq,
        presentedFill, houseRate]
      simp only [c, mode, runs, rate, b, f, flag, List.cons.injEq, List.append_cancel_left_eq, true_and]
      refine ⟨(byte_of_ofNat (by decide) (by omega)).symm, by cases s.rx[l].state <;> rfl, by cases s.modeOf l <;> rfl,
        by cases s.cv[l].state <;> rfl, ?_, flatMap_congr_fun (fun ch => ?_) _⟩
      · unfold presentedFilter
        split
        · cases s.cv[l].filter <;> rfl
        · rfl
      · refine congrArg₂ List.cons rfl (congrArg₂ List.cons rfl (congrArg₂ List.cons ?_ (congrArg₂ List.cons ?_ rfl)))
        · cases s.sources[ch] <;> rfl
        · unfold State.switchingRule allRules
          cases (List.finRange 32).find? fun r : RuleId => hasMember s.alarm.rules[r].switched ch <;> rfl
    rw [hresults]
  case slice =>
    intro n h hm hn ha latest results
    have hlen : results.length = 7 + 12 * min n.toNat 20 := by
      simp [results, List.length_flatMap]
      omega
    refine ⟨congrArg Host.Outcome.next (exec_of_ready h rfl ?_), hlen⟩
    rw [hm, readSlice_ok _ hn ha]
    have hresults : results = (s.takeCommand rest).sliceFigures a.toNat n.toNat := by
      simp only [results, b, f, latest, State.sliceFigures, beBytes_one, List.append_assoc, List.cons_append, List.nil_append]
      simp only [latestBytes, List.append_assoc, sliceReturned, flag, State.takeCommand_meas, subjectChannel, Nat.add_zero,
        BitVec.ofNat_toNat, BitVec.setWidth_eq]
      rfl
    rw [hresults]
  case programme =>
    intro h hm ha p u g
    refine ⟨fun hr => ?_, ?_⟩
    · refine congrArg Host.Outcome.next (exec_of_ready h rfl ?_)
      rw [hm, readProgramme_absent (s := s.takeCommand rest) ha hr, byte_of_ofNat (by decide) (by omega)]
    · intro r hr results
      have hwindow : s.windowLevel p = s.loud[p].window.map fun w => w.raw + r.offset := by
        unfold State.windowLevel
        rw [hr]
        cases s.loud[p].window <;> rfl
      have hlevel : (integratedLevel s.loud[p].sum s.loud[p].count r.offset).getD noneLevel =
          if s.loud[p].count = 0 then -32768 else rawLevel (s.loud[p].sum / s.loud[p].count) + r.offset := by
        unfold integratedLevel
        split <;> rfl
      have hresults (power : Nat) : results power = s.figuresWith p r power := by
        unfold State.figuresWith
        rw [hwindow, hlevel]
        have hmember (x : Member) : (match s.regionOf x.channel with
              | some y => beBytes 2 y.base ++ beBytes 2 y.count
              | none => [0#8, 0#8, 0#8, 0#8]) ++ (beBytes 3 s.lines[x.channel].v ++ (beBytes 2 s.lines[x.channel].cur ++
            (beBytes 2 s.lines[x.channel].tgt ++ [match s.lines[x.channel].move with
              | .idle => 0#8
              | .slew => 1#8
              | .cutFall => 2#8
              | .cutRise => 3#8, BitVec.ofNat 8 s.lines[x.channel].g,
                BitVec.ofNat 8 ((if s.lines[x.channel].short = true then 1 else 0) +
                  2 * if s.lines[x.channel].clamped = true then 1 else 0)]))) = s.memberFigures x.channel := by
          unfold State.memberFigures
          simp only [beBytes_one, flag, List.append_assoc, List.cons_append, List.nil_append]
          cases s.regionOf x.channel <;> cases s.lines[x.channel].move <;> rfl
        have hslot (i : Nat) : (match s.gain[p].queue[i]? with
            | some x => beBytes 4 x.due.toNat ++ beSigned 2 x.target
            | none => [0#8, 0#8, 0#8, 0#8, 0#8, 0#8]) = queueSlot s.gain[p].queue i := by
          unfold queueSlot
          cases s.gain[p].queue[i]? <;> rfl
        have ha' : a = BitVec.ofNat 8 p.val := (byte_of_ofNat (by decide) (by omega)).symm
        cases hw : s.loud[p].window
        all_goals
          simp only [results, u, g, b, f, flag, hw, Option.map_none, Option.map_some, Option.getD_none, Option.getD_some,
            noneLevel, appliedGain, gainFigures, beBytes_one, List.append_assoc, List.cons_append, List.nil_append,
            List.cons.injEq, List.append_cancel_left_eq, true_and]
          refine ⟨ha', congrArg₂ (· ++ ·) (flatMap_congr_fun hmember _) ?_⟩
          simp only [List.cons.injEq, List.append_cancel_left_eq, true_and]
          refine congrArg₂ (· ++ ·) (flatMap_congr_fun hslot _) (congrArg₂ List.cons ?_ rfl)
          cases s.gain[p].decision <;> rfl
      refine ⟨fun power => ?_, fun x xs hx => ?_, fun hx => ⟨s.latestPower p, ?_⟩⟩
      · rw [hresults, figuresWith_length]
      · have hpower : s.latestPower p = x := by
          unfold State.latestPower
          rw [show s.loud[p].history = x :: xs from hx]
        refine congrArg Host.Outcome.next (exec_of_ready h rfl ?_)
        rw [hm, readProgramme_present (s := s.takeCommand rest) ha hr, hresults, if_neg, programmeFigures_eq]
        · rw [← hpower]
          rfl
        · rw [show (s.takeCommand rest).loud[(Fin.ofNat 8 a.toNat : ProgId)].history = x :: xs from hx]
          exact nofun
      · refine congrArg Host.Outcome.next (exec_of_ready h rfl ?_)
        rw [hm, readProgramme_present (s := s.takeCommand rest) ha hr, hresults,
          if_pos (show (s.takeCommand rest).loud[(Fin.ofNat 8 a.toNat : ProgId)].history = [] from hx), programmeFigures_eq]
        rfl

/-! ### READ ENTRIES (R166, R167) -/

theorem fitting_prefix : ∀ (rs : List (List Byte)) (room : Nat), fitting room rs <+: rs
  | [], _ => List.prefix_rfl
  | r :: rs, room => by
    unfold fitting
    split
    · exact List.cons_prefix_cons.2 ⟨rfl, fitting_prefix rs _⟩
    · exact List.nil_prefix

theorem fitting_length_le : ∀ (rs : List (List Byte)) (room : Nat), (fitting room rs).flatten.length ≤ room
  | [], _ => Nat.zero_le _
  | r :: rs, room => by
    unfold fitting
    split
    · have ih := fitting_length_le rs (room - r.length)
      rw [List.flatten_cons, List.length_append]
      omega
    · exact Nat.zero_le _

/-- The first record left out would not have fitted (R167). -/
theorem fitting_next : ∀ (rs : List (List Byte)) (room : Nat) (r : List Byte), rs[(fitting room rs).length]? = some r →
    room < (fitting room rs).flatten.length + r.length
  | [], room, r, h => by cases h
  | x :: rs, room, r, h => by
    unfold fitting at h ⊢
    split at h
    · next hx =>
      rw [if_pos hx]
      rw [List.length_cons, List.getElem?_cons_succ] at h
      have ih := fitting_next rs (room - x.length) r h
      rw [List.flatten_cons, List.length_append]
      omega
    · next hx =>
      rw [if_neg hx]
      obtain rfl : x = r := Option.some.inj h
      exact Nat.lt_of_not_le fun hle => hx (by simpa using hle)

theorem recordBytes_length_pos (r : Record) : 1 ≤ (recordBytes r).length := by
  cases r with
  | programme p => cases p <;> simp [recordBytes, programmeBytes]
  | outputMap o => cases o <;> simp [recordBytes]
  | region g => cases g <;> simp [recordBytes]
  | select e => cases e <;> simp [recordBytes]
  | slotMap e => simp [recordBytes]
  | linkConfig c => simp [recordBytes]
  | filter v => simp [recordBytes]
  | weighting v => simp [recordBytes]
  | alarmRule x => simp [recordBytes, ruleBytes]

theorem length_le_flatten {α : Type} : ∀ {rs : List (List α)}, (∀ r ∈ rs, 1 ≤ r.length) → rs.length ≤ rs.flatten.length
  | [], _ => le_rfl
  | r :: rs, h => by
    have hr := h r List.mem_cons_self
    have ih := length_le_flatten fun x hx => h x (List.mem_cons_of_mem r hx)
    rw [List.flatten_cons, List.length_append, List.length_cons]
    omega

section
variable (t : Tables) (b : Routing) (name : TableName) (first count : Nat)

/-- Record k of READ ENTRIES is that of entry first + k (R167). -/
theorem entriesReturned_get {k : Nat} (hk : k < (entriesReturned t b name first count).length) :
    k < count ∧ (entriesReturned t b name first count)[k]? = some (recordBytes (entryOf t b name (first + k))) := by
  have hprefix := fitting_prefix ((List.range (min count 241)).map fun k => recordBytes (entryOf t b name (first + k))) 241
  have hlen := hprefix.length_le
  have hget : ((List.range (min count 241)).map fun k => recordBytes (entryOf t b name (first + k)))[k]? =
      (entriesReturned t b name first count)[k]? := by
    obtain ⟨rest, hrest⟩ := hprefix
    rw [← hrest]
    exact List.getElem?_append_left hk
  rw [List.length_map, List.length_range] at hlen
  have hk' : k < min count 241 := lt_of_lt_of_le hk hlen
  refine ⟨by omega, hget.symm.trans ?_⟩
  rw [List.getElem?_map, List.getElem?_range hk', Option.map_some]

theorem entriesReturned_length_le : (entriesReturned t b name first count).length ≤ count := by
  have hlen := (fitting_prefix ((List.range (min count 241)).map fun k => recordBytes (entryOf t b name (first + k)))
    241).length_le
  rw [List.length_map, List.length_range] at hlen
  exact hlen.trans (Nat.min_le_left _ _)

/-- When fewer records are returned than asked for, the next one would not have fitted (R167). -/
theorem entriesReturned_next (h : (entriesReturned t b name first count).length < count) :
    241 < (entriesReturned t b name first count).flatten.length +
      (recordBytes (entryOf t b name (first + (entriesReturned t b name first count).length))).length := by
  have hpos := recordBytes_length_pos (entryOf t b name (first + (entriesReturned t b name first count).length))
  have hflat : (entriesReturned t b name first count).length ≤ (entriesReturned t b name first count).flatten.length :=
    length_le_flatten fun r hr => by
      obtain ⟨k, hk, hget⟩ := List.mem_iff_getElem.1 hr
      have hk' := (entriesReturned_get t b name first count hk).2
      rw [List.getElem?_eq_getElem hk, hget] at hk'
      rw [Option.some.inj hk']
      exact recordBytes_length_pos _
  by_cases hfull : (entriesReturned t b name first count).length < 241
  · refine fitting_next _ _ _ ?_
    change ((List.range (min count 241)).map _)[(entriesReturned t b name first count).length]? = _
    rw [List.getElem?_map, List.getElem?_range (Nat.lt_min.2 ⟨h, hfull⟩), Option.map_some]
  · omega

end

/-- READ ENTRIES after its length, index and bank checks (R166, R167, R142). -/
theorem readEntries_eq {s : State} {code bank f1 f0 n1 n0 : Byte} {name : TableName} (hname : tableOf code.toNat = some name)
    (hbank : bank.toNat ≤ 1) (hcount : 1 ≤ n1.toNat * 256 + n0.toNat)
    (hsize : f1.toNat * 256 + f0.toNat + (n1.toNat * 256 + n0.toNat) ≤ tableSize name) :
    s.readEntries [code, bank, f1, f0, n1, n0] =
      if banked name = true ∧ bank = 1#8 ∧ s.tables.bankState = .copying then (s, [6#8])
      else
        (s, [0#8, code, bank, f1, f0] ++
          beBytes 2 (entriesReturned s.tables (if bank = 1#8 then standbyBank s.tables else activeBank s.tables) name
            (f1.toNat * 256 + f0.toNat) (n1.toNat * 256 + n0.toNat)).length ++
          (entriesReturned s.tables (if bank = 1#8 then standbyBank s.tables else activeBank s.tables) name
            (f1.toNat * 256 + f0.toNat) (n1.toNat * 256 + n0.toNat)).flatten) := by
  have hcode : byteAt [code, bank, f1, f0, n1, n0] 0 = code.toNat := rfl
  have hwhich : byteAt [code, bank, f1, f0, n1, n0] 1 = bank.toNat := rfl
  have hfirst : fieldAt [code, bank, f1, f0, n1, n0] 2 2 = f1.toNat * 256 + f0.toNat := by simp [fieldAt, fromBytes]
  have hn : fieldAt [code, bank, f1, f0, n1, n0] 4 2 = n1.toNat * 256 + n0.toNat := by simp [fieldAt, fromBytes]
  have hone : bank.toNat = 1 ↔ bank = 1#8 := by
    rw [← BitVec.toNat_inj]
    rfl
  have hbytes : beBytes 2 (f1.toNat * 256 + f0.toNat) = [f1, f0] := by
    have h1 := f1.isLt
    have h0 := f0.isLt
    simp only [beBytes, List.cons.injEq, and_true]
    constructor <;> apply BitVec.eq_of_toNat_eq <;> simp <;> omega
  unfold State.readEntries
  rw [if_neg (by simp)]
  simp only [hcode, hwhich, hname, hfirst, hn]
  rw [if_neg (by simp), if_neg (by omega), if_neg (by omega)]
  by_cases hbusy : banked name = true ∧ bank = 1#8 ∧ s.tables.bankState = .copying
  · obtain ⟨hbanked, hstandby, hcopying⟩ := hbusy
    rw [if_pos (by simp [hbanked, hstandby, hcopying]), if_pos ⟨hbanked, hstandby, hcopying⟩]
    rfl
  · rw [if_neg hbusy, if_neg]
    · rw [hbytes, beBytes_one, beBytes_one, BitVec.ofNat_toNat, BitVec.ofNat_toNat, BitVec.setWidth_eq, BitVec.setWidth_eq]
      simp only [hone]
      rfl
    · simpa only [Bool.and_eq_true, beq_iff_eq, hone, and_assoc] using hbusy

/-- Settles O35: the records returned are the longest run from the first on that fits into 241 bytes. -/
theorem readEntriesReturnsWholeRecords : Obligations.ReadEntriesReturnsWholeRecords := by
  intro s m rest code bank f1 f0 n1 n0 name h hm hname hbank hcount hsize
  have hread := readEntries_eq (s := s.takeCommand rest) hname hbank hcount hsize
  refine ⟨fun hbanked hstandby hcopying => ?_, fun hfree => ?_⟩
  · refine congrArg Host.Outcome.next (exec_of_ready h rfl ?_)
    rw [hm, hread, if_pos ⟨hbanked, hstandby, hcopying⟩]
  · rw [State.takeCommand_tables, if_neg hfree] at hread
    refine ⟨_, congrArg Host.Outcome.next (exec_of_ready h rfl (hm ▸ hread)), entriesReturned_length_le _ _ _ _ _,
      fitting_length_le _ _, fun k hk => (entriesReturned_get _ _ _ _ _ hk).2, fun hfew => entriesReturned_next _ _ _ _ _ hfew⟩

end Sys2Proof.Machine
end

section
/-! PROOF. The take's commands and validation, and the live adjusts: O38, O39. -/

namespace Sys2Proof.Machine

/-! ### Bytes that spell a field (R183) -/

theorem fromBytes_inj : ∀ {xs ys : List Byte}, xs.length = ys.length → fromBytes xs = fromBytes ys → xs = ys
  | [], [], _, _ => rfl
  | x :: xs, y :: ys, hlen, h => by
    have hlen' : xs.length = ys.length := Nat.succ.inj hlen
    have hx := fromBytes_lt xs
    have hy := fromBytes_lt ys
    rw [fromBytes_cons, fromBytes_cons, hlen'] at h
    rw [hlen'] at hx
    have hhead : x.toNat = y.toNat := by
      have hdiv : (x.toNat * 256 ^ ys.length + fromBytes xs) / 256 ^ ys.length =
          (y.toNat * 256 ^ ys.length + fromBytes ys) / 256 ^ ys.length := congrArg (· / 256 ^ ys.length) h
      rwa [Nat.mul_comm, Nat.mul_add_div (Nat.pow_pos (by decide)), Nat.div_eq_of_lt hx, Nat.mul_comm,
        Nat.mul_add_div (Nat.pow_pos (by decide)), Nat.div_eq_of_lt hy] at hdiv
    rw [hhead] at h
    rw [BitVec.eq_of_toNat_eq hhead, fromBytes_inj hlen' (Nat.add_left_cancel h)]

/-- Bytes are those of the number that they spell. -/
theorem beBytes_fromBytes (bs : List Byte) : beBytes bs.length (fromBytes bs) = bs :=
  fromBytes_inj (beBytes_length _ _) (by rw [fromBytes_beBytes, Nat.mod_eq_of_lt (fromBytes_lt bs)])

theorem toNat_append_byte {w : Nat} (x : BitVec w) (y : Byte) : (x ++ y).toNat = x.toNat * 256 + y.toNat := by
  rw [BitVec.toNat_append, Nat.shiftLeft_eq, Nat.mul_comm]
  exact (Nat.two_pow_add_eq_or_of_lt y.isLt _).symm

theorem fromBytes_two (a b : Byte) : fromBytes [a, b] = (a ++ b : BitVec 16).toNat := by
  have h : (a ++ b : BitVec 16).toNat = a.toNat * 256 + b.toNat := toNat_append_byte a b
  rw [h]
  simp [fromBytes]

/-- The number that four bytes spell is that of the 32 bits laid one after another. -/
theorem fromBytes_four (a b c d : Byte) : fromBytes [a, b, c, d] = (a ++ b ++ c ++ d : BitVec 32).toNat := by
  have h1 : (a ++ b ++ c ++ d : BitVec 32).toNat = (a ++ b ++ c : BitVec 24).toNat * 256 + d.toNat := toNat_append_byte _ d
  have h2 : (a ++ b ++ c : BitVec 24).toNat = (a ++ b : BitVec 16).toNat * 256 + c.toNat := toNat_append_byte _ c
  have h3 : (a ++ b : BitVec 16).toNat = a.toNat * 256 + b.toNat := toNat_append_byte a b
  rw [h1, h2, h3]
  simp [fromBytes]

theorem beBytes_four_append (a b c d : Byte) : beBytes 4 (a ++ b ++ c ++ d : BitVec 32).toNat = [a, b, c, d] := by
  rw [← fromBytes_four]
  exact beBytes_fromBytes [a, b, c, d]

/-! ### TAKE and CANCEL TAKE (R143, R145, R177) -/

/-- The checks of TAKE in their order, and its effect (R143, R144, R177). -/
theorem takeCommandOf_eq (s : State) (form a b c d : Byte) :
    s.takeCommandOf [form, a, b, c, d] =
      if 2 < form.toNat then (s, [4#8])
      else if s.tables.bankState ≠ .editing then (s, [6#8])
      else match takeInstant s.tb form.toNat (a ++ b ++ c ++ d) with
        | none => (s, [4#8])
        | some i => match validate (standbyBank s.tables) with
          | some k => (s, conflictReply k)
          | none => (s.setTables (armTake i s.tables), 0#8 :: beBytes 4 i.toNat) := by
  have hform : byteAt [form, a, b, c, d] 0 = form.toNat := rfl
  have hat : BitVec.ofNat 32 (fieldAt [form, a, b, c, d] 1 4) = (a ++ b ++ c ++ d : BitVec 32) := by
    have hfield : fieldAt [form, a, b, c, d] 1 4 = fromBytes [a, b, c, d] := rfl
    rw [hfield, fromBytes_four, BitVec.ofNat_toNat, BitVec.setWidth_eq]
  unfold State.takeCommandOf
  rw [if_neg (by simp), hform, hat]
  rfl

section
variable {s : State} {form a b c d : Byte}

theorem take_badForm (h : 2 < form.toNat) : s.takeCommandOf [form, a, b, c, d] = (s, [4#8]) := by
  rw [takeCommandOf_eq, if_pos h]

theorem take_busy (h : form.toNat ≤ 2) (hbank : s.tables.bankState ≠ .editing) :
    s.takeCommandOf [form, a, b, c, d] = (s, [6#8]) := by
  rw [takeCommandOf_eq, if_neg (Nat.not_lt.2 h), if_pos hbank]

variable (h : form.toNat ≤ 2) (hbank : s.tables.bankState = .editing)
include h hbank

theorem take_outOfRange (hat : takeInstant s.tb form.toNat (a ++ b ++ c ++ d) = none) :
    s.takeCommandOf [form, a, b, c, d] = (s, [4#8]) := by
  rw [takeCommandOf_eq, if_neg (Nat.not_lt.2 h), if_neg (not_not.2 hbank), hat]

theorem take_conflict {i : Instant} {k : Conflict} (hat : takeInstant s.tb form.toNat (a ++ b ++ c ++ d) = some i)
    (hk : validate (standbyBank s.tables) = some k) : s.takeCommandOf [form, a, b, c, d] = (s, conflictReply k) := by
  rw [takeCommandOf_eq, if_neg (Nat.not_lt.2 h), if_neg (not_not.2 hbank), hat]
  dsimp only
  rw [hk]

theorem take_armed {i : Instant} (hat : takeInstant s.tb form.toNat (a ++ b ++ c ++ d) = some i)
    (hk : validate (standbyBank s.tables) = none) :
    s.takeCommandOf [form, a, b, c, d] = (s.setTables (armTake i s.tables), 0#8 :: beBytes 4 i.toNat) := by
  rw [takeCommandOf_eq, if_neg (Nat.not_lt.2 h), if_neg (not_not.2 hbank), hat]
  dsimp only
  rw [hk]

end

/-- The instant of an AT take lies 1 to 2^24 frames ahead (R143). -/
theorem takeInstant_at (t : Timebase) (x : Instant) :
    takeInstant t 2 x = if 1 ≤ (x - t.hfc).toNat ∧ (x - t.hfc).toNat ≤ 16777216 then some x else none := rfl

theorem cancelTake_eq (s : State) :
    s.cancelTake [] = match s.tables.bankState with
      | .editing => (s, [9#8])
      | .copying => (s, [6#8])
      | .armed => (s.setTables (disarmTake s.tables), 0#8 :: beBytes 4 (s.tables.pendingInstant.getD 0#32).toNat) := by
  unfold State.cancelTake
  rw [if_neg (by simp)]
  cases s.tables.bankState <;> rfl

/-! ### Validation (R144) -/

/-- The present record lists the channel in a bank. -/
def ListsIn (b : Routing) (p : ProgId) (c : ChannelId) : Prop := ∃ r : ProgRecord, b.programmes[p] = some r ∧ r.lists c = true

theorem memberTwice_some {b : Routing} {k : Conflict} (h : memberTwice b = some k) :
    k.check = 0 ∧ k.table = 3 ∧ ∃ (p q : ProgId) (c : ChannelId), q < p ∧ ListsIn b p c ∧ ListsIn b q c ∧
      k.entry = p.val ∧ k.second = c.val := by
  obtain ⟨⟨p, c⟩, hfind, rfl⟩ := Option.map_eq_some_iff.1 h
  have hp := (mem_visitMembers b p c).1 (List.mem_of_find?_eq_some hfind)
  obtain ⟨q, r, hlt, hq, hr⟩ := (listedBelow_iff b p c).1 (List.find?_some (p := fun x : ProgId × ChannelId => listedBelow b x.1 x.2) hfind)
  exact ⟨rfl, rfl, p, q, c, hlt, hp, ⟨r, hq, hr⟩, rfl, rfl⟩

theorem memberTwice_none_iff_lists (b : Routing) :
    memberTwice b = none ↔ ¬ ∃ (p q : ProgId) (c : ChannelId), q < p ∧ ListsIn b p c ∧ ListsIn b q c := by
  rw [memberTwice_none_iff]
  constructor
  · rintro h ⟨p, q, c, hlt, ⟨r, hp, hr⟩, ⟨r', hq, hr'⟩⟩
    exact absurd (h c q p r' r hq hp hr' hr) (ne_of_lt hlt)
  · intro h c p q r r' hp hq hr hr'
    rcases lt_trichotomy p q with hlt | heq | hgt
    · exact absurd ⟨q, p, c, hlt, ⟨r', hq, hr'⟩, ⟨r, hp, hr⟩⟩ h
    · exact heq
    · exact absurd ⟨p, q, c, hgt, ⟨r, hp, hr⟩, ⟨r', hq, hr'⟩⟩ h

theorem regionOverlap_some {b : Routing} {k : Conflict} (h : regionOverlap b = some k) :
    k.check = 1 ∧ k.table = 4 ∧ ∃ c d : ChannelId, d < c ∧ sharePage b.regions[c] b.regions[d] = true ∧
      k.entry = c.val ∧ k.second = d.val := by
  obtain ⟨c, -, hc⟩ := List.exists_of_findSome?_eq_some h
  obtain ⟨d, hfind, rfl⟩ := Option.map_eq_some_iff.1 hc
  have hd := List.find?_some hfind
  rw [Bool.and_eq_true, decide_eq_true_iff] at hd
  exact ⟨rfl, rfl, c, d, hd.1, hd.2, rfl, rfl⟩

theorem regionOverlap_none_iff_lt (b : Routing) :
    regionOverlap b = none ↔ ¬ ∃ c d : ChannelId, d < c ∧ sharePage b.regions[c] b.regions[d] = true := by
  rw [regionOverlap_none_iff]
  constructor
  · rintro h ⟨c, d, hlt, hshare⟩
    rw [h c d (ne_of_gt hlt)] at hshare
    cases hshare
  · intro h c d hne
    rcases lt_or_gt_of_ne hne with hlt | hgt
    · rw [sharePage_comm]
      exact Bool.eq_false_iff.2 fun hs => h ⟨d, c, hlt, hs⟩
    · exact Bool.eq_false_iff.2 fun hs => h ⟨c, d, hgt, hs⟩

theorem memberUnmapped_some {b : Routing} {k : Conflict} (h : memberUnmapped b = some k) :
    k.check = 2 ∧ k.table = 1 ∧ ∃ (p : ProgId) (c : ChannelId), ListsIn b p c ∧ b.slotMap[c].primary = none ∧
      k.entry = c.val ∧ k.second = p.val := by
  obtain ⟨⟨p, c⟩, hfind, rfl⟩ := Option.map_eq_some_iff.1 h
  exact ⟨rfl, rfl, p, c, (mem_visitMembers b p c).1 (List.mem_of_find?_eq_some hfind),
    Option.isNone_iff_eq_none.1 (List.find?_some (p := fun x : ProgId × ChannelId => b.slotMap[x.2].primary.isNone) hfind), rfl, rfl⟩

theorem memberUnmapped_none_iff (b : Routing) :
    memberUnmapped b = none ↔ ∀ (p : ProgId) (r : ProgRecord) (c : ChannelId), b.programmes[p] = some r → r.lists c = true →
      b.slotMap[c].primary ≠ none := by
  simp only [memberUnmapped, Option.map_eq_none_iff, List.find?_eq_none, Prod.forall, mem_visitMembers,
    Option.isNone_iff_eq_none]
  exact ⟨fun h p r c hp hr => h p c ⟨r, hp, hr⟩, fun h p c ⟨r, hp, hr⟩ => h p r c hp hr⟩

/-- A conflict found is of the first of the three checks that fails (R144). -/
theorem validate_some {b : Routing} {k : Conflict} (h : validate b = some k) :
    (memberTwice b ≠ none → memberTwice b = some k) ∧
    (memberTwice b = none → regionOverlap b ≠ none → regionOverlap b = some k) ∧
    (memberTwice b = none → regionOverlap b = none → memberUnmapped b = some k) := by
  unfold validate at h
  cases h1 : memberTwice b <;> cases h2 : regionOverlap b <;> simp_all

/-- Settles O38: the checks of TAKE in their order, and the three checks of validation in theirs. -/
theorem takeCancelAndValidation : Obligations.TakeCancelAndValidation := by
  refine ⟨?commands, fun bank => ?_, fun bank k hk => ?_⟩
  case commands =>
    intro s m rest a b c d at_ armed
    refine ⟨fun h => ⟨fun hbank hvalid => ⟨fun hm => ?_, fun hm => ?_, fun hm hlo hhi => ?_⟩,
      fun hbank hm hout => ?_, fun k hbank hk hm => ?_, fun form hm => ⟨fun hform => ?_, fun hform hbank => ?_⟩⟩,
      fun h hm => ⟨fun i hbank hi => ?_, fun hbank => ?_, fun hbank => ?_⟩⟩
    · refine congrArg Host.Outcome.next (exec_of_ready h rfl ?_)
      rw [hm]
      exact take_armed (s := s.takeCommand rest) (form := 0#8) (by decide) hbank rfl hvalid
    · refine congrArg Host.Outcome.next (exec_of_ready h rfl ?_)
      rw [hm]
      exact take_armed (s := s.takeCommand rest) (form := 1#8) (by decide) hbank rfl hvalid
    · refine congrArg Host.Outcome.next (exec_of_ready h rfl ?_)
      rw [hm]
      exact (take_armed (s := s.takeCommand rest) (form := 2#8) (by decide) hbank
        ((takeInstant_at s.tb at_).trans (if_pos ⟨hlo, hhi⟩)) hvalid).trans (by rw [beBytes_four_append]; rfl)
    · refine congrArg Host.Outcome.next (exec_of_ready h rfl ?_)
      rw [hm]
      exact take_outOfRange (s := s.takeCommand rest) (form := 2#8) (by decide) hbank ((takeInstant_at s.tb at_).trans (if_neg (by omega)))
    · refine congrArg Host.Outcome.next (exec_of_ready h rfl ?_)
      have hreply : conflictReply k = [7#8, BitVec.ofNat 8 k.check, BitVec.ofNat 8 k.table] ++ beBytes 2 k.entry ++
          beBytes 2 k.second := by
        simp [conflictReply, beBytes_one, statusByte]
      rw [← hreply]
      rcases hm with hm | hm | ⟨hm, hlo, hhi⟩ <;> rw [hm]
      · exact take_conflict (s := s.takeCommand rest) (form := 0#8) (by decide) hbank rfl hk
      · exact take_conflict (s := s.takeCommand rest) (form := 1#8) (by decide) hbank rfl hk
      · exact take_conflict (s := s.takeCommand rest) (form := 2#8) (by decide) hbank ((takeInstant_at s.tb at_).trans (if_pos ⟨hlo, hhi⟩)) hk
    · refine congrArg Host.Outcome.next (exec_of_ready h rfl ?_)
      rw [hm, take_badForm hform]
    · refine congrArg Host.Outcome.next (exec_of_ready h rfl ?_)
      rw [hm]
      exact take_busy (s := s.takeCommand rest) hform hbank
    · refine congrArg Host.Outcome.next (exec_of_ready h rfl ?_)
      rw [hm, cancelTake_eq, State.takeCommand_tables, hbank, hi]
      rfl
    · refine congrArg Host.Outcome.next (exec_of_ready h rfl ?_)
      rw [hm, cancelTake_eq, State.takeCommand_tables, hbank]
    · refine congrArg Host.Outcome.next (exec_of_ready h rfl ?_)
      rw [hm, cancelTake_eq, State.takeCommand_tables, hbank]
  · rw [validate_none_iff, memberTwice_none_iff, regionOverlap_none_iff, memberUnmapped_none_iff, Safety.BankSound, and_assoc]
  · obtain ⟨htwice, hoverlap, hunmapped⟩ := validate_some hk
    rw [Ne, memberTwice_none_iff_lists, not_not] at htwice
    rw [memberTwice_none_iff_lists, Ne, regionOverlap_none_iff_lt, not_not] at hoverlap
    rw [memberTwice_none_iff_lists, regionOverlap_none_iff_lt] at hunmapped
    exact ⟨fun h => memberTwice_some (htwice h), fun h h' => regionOverlap_some (hoverlap h h'),
      fun h h' => memberUnmapped_some (hunmapped h h')⟩

/-! ### The live adjusts (R149) -/

theorem banksWritten_eq (s : State) (p : ProgId) :
    banksWritten s.tables p = (if s.active.programmes[p] = none then 0 else 1) +
      (if (standbyBank s.tables).programmes[p] = none then 0 else 2) := by
  unfold banksWritten State.active
  cases (activeBank s.tables).programmes[p] <;> cases (standbyBank s.tables).programmes[p] <;> rfl

theorem adjustBank_programmes (f : ProgRecord → ProgRecord) (p q : ProgId) (b : Routing) :
    (adjustBank f p b).programmes[q] = if q = p then b.programmes[p].map f else b.programmes[q] := by
  unfold adjustBank
  by_cases h : q = p
  · rw [if_pos h, h]
    exact Vector.getElem_set_self _
  · rw [if_neg h]
    exact Vector.getElem_set_ne p.isLt q.isLt fun hv => h (Fin.ext hv.symm)

theorem adjusted_adjustTables (f : ProgRecord → ProgRecord) (p : ProgId) (t : Tables) :
    Safety.Adjusted t (adjustTables f p t) p f :=
  ⟨fun q => ⟨adjustBank_programmes f p q t.bank0, adjustBank_programmes f p q t.bank1⟩, rfl⟩

theorem adjustRefusal_eq (s : State) (p : ProgId) :
    s.adjustRefusal p = if s.tables.bankState ≠ .editing then some .busy
      else if banksWritten s.tables p = 0 then some .badState else none := rfl

/-- The reply of a live adjust: its programme, its value as sent, and the banks written (R178). -/
theorem adjustReply_two (s : State) (p : ProgId) (v1 v0 : Byte) :
    s.adjustReply p [v1, v0] = [0#8, BitVec.ofNat 8 p.val, v1, v0, BitVec.ofNat 8 (banksWritten s.tables p)] := by
  simp [State.adjustReply, okReply, statusByte, beBytes_one]

theorem signedAt_two (a v1 v0 : Byte) : signedAt [a, v1, v0] 1 2 = (v1 ++ v0 : BitVec 16).toInt := by
  have hfield : signedAt [a, v1, v0] 1 2 = fromBytesSigned [v1, v0] := rfl
  rw [hfield]
  have hpow : 256 ^ [v1, v0].length = 2 ^ 16 := by simp
  unfold fromBytesSigned
  rw [fromBytes_two, BitVec.toInt]
  simp only [hpow]

theorem beSigned_toInt (v1 v0 : Byte) : beSigned 2 (v1 ++ v0 : BitVec 16).toInt = [v1, v0] := by
  have hmod : ((v1 ++ v0 : BitVec 16).toInt % (256 ^ 2 : Nat)).toNat = fromBytes [v1, v0] := by
    rw [fromBytes_two]
    generalize (v1 ++ v0 : BitVec 16) = x
    have hx := x.isLt
    rw [BitVec.toInt]
    split <;> omega
  rw [beSigned, hmod]
  exact beBytes_fromBytes [v1, v0]

theorem within_iff (lo hi v : Int) : within lo hi v = true ↔ lo ≤ v ∧ v ≤ hi := by
  unfold within
  rw [decide_eq_true_iff]

/-- SET TARGET and SET TRIM: the range, the refusals in their order, and the write (R113, R114). -/
theorem setTarget_eq (s : State) (p : ProgId) (v1 v0 : Byte) :
    s.setTarget [BitVec.ofNat 8 p.val, v1, v0] =
      if ¬ (-400 ≤ (v1 ++ v0 : BitVec 16).toInt ∧ (v1 ++ v0 : BitVec 16).toInt ≤ -100) then (s, [4#8])
      else match s.adjustRefusal p with
        | some st => s.refuse st
        | none => (s.setTables (adjustTables (fun r => { r with target := (v1 ++ v0 : BitVec 16).toInt }) p s.tables),
            [0#8, BitVec.ofNat 8 p.val, v1, v0, BitVec.ofNat 8 (banksWritten s.tables p)]) := by
  have hbyte : byteAt [BitVec.ofNat 8 p.val, v1, v0] 0 = p.val := byteAt_progByte p
  unfold State.setTarget
  rw [if_neg (by simp)]
  simp only [hbyte, prog_not_above_seven, progOf_val, signedAt_two, beSigned_toInt, adjustReply_two, if_false,
    Bool.not_eq_true', ← Bool.not_eq_true, within_iff] <;> rfl

theorem setTrim_eq (s : State) (p : ProgId) (v1 v0 : Byte) :
    s.setTrim [BitVec.ofNat 8 p.val, v1, v0] =
      if ¬ (-240 ≤ (v1 ++ v0 : BitVec 16).toInt ∧ (v1 ++ v0 : BitVec 16).toInt ≤ 120) then (s, [4#8])
      else match s.adjustRefusal p with
        | some st => s.refuse st
        | none => (s.setTables (adjustTables (fun r => { r with trim := (v1 ++ v0 : BitVec 16).toInt }) p s.tables),
            [0#8, BitVec.ofNat 8 p.val, v1, v0, BitVec.ofNat 8 (banksWritten s.tables p)]) := by
  have hbyte : byteAt [BitVec.ofNat 8 p.val, v1, v0] 0 = p.val := byteAt_progByte p
  unfold State.setTrim
  rw [if_neg (by simp)]
  simp only [hbyte, prog_not_above_seven, progOf_val, signedAt_two, beSigned_toInt, adjustReply_two, if_false,
    Bool.not_eq_true', ← Bool.not_eq_true, within_iff] <;> rfl

theorem setDelay_eq (s : State) (p : ProgId) (d1 d0 : Byte) :
    s.setDelay [BitVec.ofNat 8 p.val, d1, d0] =
      match s.adjustRefusal p with
      | some st => s.refuse st
      | none => ((s.setTables (adjustTables (fun r => { r with dt := d1.toNat * 256 + d0.toNat }) p s.tables)).answerDelay p
            ((s.record p).map (·.dt)),
          [0#8, BitVec.ofNat 8 p.val, d1, d0, BitVec.ofNat 8 (banksWritten s.tables p)]) := by
  have hbyte : byteAt [BitVec.ofNat 8 p.val, d1, d0] 0 = p.val := byteAt_progByte p
  have hfield : fieldAt [BitVec.ofNat 8 p.val, d1, d0] 1 2 = d1.toNat * 256 + d0.toNat := by simp [fieldAt, fromBytes]
  have hbytes : beBytes 2 (d1.toNat * 256 + d0.toNat) = [d1, d0] := by
    have h := beBytes_fromBytes [d1, d0]
    simpa [fromBytes] using h
  unfold State.setDelay
  rw [if_neg (by simp)]
  simp only [hbyte, prog_not_above_seven, progOf_val, hfield, hbytes, adjustReply_two, if_false] <;> rfl

/-! ### What SET DELAY does to the lines (R72) -/

/-- A line recomputed with the class that a move mode gives to a change of D_t (R62). -/
def State.delayLine (s : State) (mode : MoveMode) (c : ChannelId) (l : Line) : Line :=
  match mode with
  | .slew => slewClass l (s.lineTarget c)
  | .cut => cutClass l (s.lineTarget c) false

theorem recomputeDelay_eq (s : State) (mode : MoveMode) (c : ChannelId) :
    s.recomputeDelay mode c = s.setLine c (s.delayLine mode c s.lines[c]) := by
  cases mode <;> rfl

theorem delayLine_congr {s t : State} (hT : t.tables = s.tables) (hS : t.sources = s.sources) (hC : t.cv = s.cv)
    (mode : MoveMode) (c : ChannelId) (l : Line) : t.delayLine mode c l = s.delayLine mode c l := by
  unfold State.delayLine
  rw [lineTarget_eq hT hS hC]

/-- Recomputed twice for the same change, a line is as recomputed once. -/
theorem delayLine_idem (s : State) (mode : MoveMode) (c : ChannelId) (l : Line) :
    s.delayLine mode c (s.delayLine mode c l) = s.delayLine mode c l := by
  unfold State.delayLine
  generalize s.lineTarget c = t
  cases mode with
  | slew =>
    cases hm : l.move <;> by_cases ht : t.tgt = l.cur <;> simp [slewClass, aimLine, hm, ht]
  | cut =>
    cases hm : l.move <;> by_cases ht : t.tgt = l.cur <;> simp [cutClass, aimLine, hm, ht]

theorem delayLine_access (s : State) (mode : MoveMode) (c : ChannelId) (l : Line) :
    (s.delayLine mode c l).cur = l.cur ∧ (s.delayLine mode c l).v = l.v ∧ (s.delayLine mode c l).wptr = l.wptr := by
  unfold State.delayLine
  cases mode with
  | slew =>
    obtain ⟨-, -, -, hcur, hv, hwptr, -⟩ := slewClass_frame l (s.lineTarget c)
    exact ⟨hcur, hv, hwptr⟩
  | cut =>
    obtain ⟨-, -, -, hcur, hv, hwptr⟩ := cutClass_frame l (s.lineTarget c) false
    exact ⟨hcur, hv, hwptr⟩

/-- The members' lines recomputed one after another: each listed channel's line once, the others as they were (R72). -/
theorem recomputeMembers_lines (mode : MoveMode) : ∀ (ms : List Member) (s : State),
    let t := ms.foldl (fun (s : State) m => s.recomputeDelay mode m.channel) s
    t = { s with lines := t.lines } ∧
    ∀ c : ChannelId, t.lines[c] = if ms.any (fun m => m.channel == c) then s.delayLine mode c s.lines[c] else s.lines[c]
  | [], s => ⟨rfl, fun c => rfl⟩
  | m :: ms, s => by
    intro t
    have hstep := recomputeDelay_eq s mode m.channel
    have ht : t = ms.foldl (fun (s : State) m => s.recomputeDelay mode m.channel) (s.recomputeDelay mode m.channel) := rfl
    rw [hstep] at ht
    obtain ⟨hframe, hlines⟩ :=
      recomputeMembers_lines mode ms (s.setLine m.channel (s.delayLine mode m.channel s.lines[m.channel]))
    rw [← ht] at hframe hlines
    refine ⟨hframe, fun c => ?_⟩
    have hsame := delayLine_congr (s := s) (t := s.setLine m.channel (s.delayLine mode m.channel s.lines[m.channel]))
      rfl rfl rfl mode c
    rw [hlines c, hsame, List.any_cons]
    by_cases hc : c = m.channel
    · subst hc
      rw [State.setLine_get_self, delayLine_idem, beq_self_eq_true, Bool.true_or, if_pos rfl, ite_self]
    · rw [State.setLine_get_ne _ _ _ _ hc, beq_false_of_ne (fun e => hc e.symm), Bool.false_or]

theorem answerDelay_absent {s : State} {p : ProgId} (h : s.record p = none) (before : Option Nat) :
    s.answerDelay p before = s := by
  unfold State.answerDelay
  rw [h]

theorem answerDelay_same {s : State} {p : ProgId} {r : ProgRecord} (h : s.record p = some r) {before : Option Nat}
    (hdt : before = some r.dt) : s.answerDelay p before = s := by
  unfold State.answerDelay
  rw [h]
  exact if_pos hdt

theorem answerDelay_changed {s : State} {p : ProgId} {r : ProgRecord} (h : s.record p = some r) {before : Option Nat}
    (hdt : before ≠ some r.dt) :
    s.answerDelay p before = r.members.foldl (fun (s : State) m => s.recomputeDelay r.moveMode m.channel) s := by
  unfold State.answerDelay
  rw [h]
  exact if_neg hdt

/-- In a sound bank the programme that lists a channel is the one whose record aims its line. -/
theorem programmeOf_of_sound {s : State} (h : Safety.BankSound s.active) {p : ProgId} {c : ChannelId}
    (hl : Safety.Lists s p c) : programmeOf s.active c = some p := by
  rw [programmeOf_iff]
  refine ⟨hl, fun q hq hl' => ?_⟩
  obtain ⟨r, hr, hc⟩ := hl
  obtain ⟨r', hr', hc'⟩ := hl'
  exact absurd (h.1 c q p r' r hr' hr hc' hc) (ne_of_lt hq)

/-- A line recomputed by its move mode answers as the classes say (R62, R63, R65, R67, R68). -/
theorem delayLine_answers (s : State) (mode : MoveMode) (c : ChannelId) (l : Line) :
    (mode = .slew → Safety.SlewAnswer s c l (s.delayLine mode c l)) ∧
    (mode = .cut → Safety.CutAnswer s c l (s.delayLine mode c l) false) := by
  cases mode with
  | slew => exact ⟨fun _ => slewClass_answers s c l, nofun⟩
  | cut => exact ⟨nofun, fun _ => cutClass_answers s c l false⟩

/-- What aims a line at a record's D_t, when the record is that of the channel's programme (R61). -/
theorem aimsAt_record {s : State} {c : ChannelId} {r : ProgRecord} {l : Line} (hr : s.recordOf c = some r)
    (h : Safety.AimsAt s c l) :
    l.tgt = min (r.dt - s.latencyOf c) (regionLength (s.regionOf c) - 1) ∧
    (s.regionOf c ≠ none → (l.short = true ↔ r.dt < s.latencyOf c) ∧
      (l.clamped = true ↔ regionLength (s.regionOf c) - 1 < r.dt - s.latencyOf c)) := by
  unfold Safety.AimsAt at h
  rw [hr] at h
  cases hg : s.regionOf c with
  | none =>
    rw [hg] at h
    exact ⟨h.1.trans (by simp [regionLength]), fun hne => absurd rfl hne⟩
  | some g =>
    rw [hg] at h
    obtain ⟨htgt, hshort, hclamped⟩ := h
    exact ⟨htgt, fun _ => ⟨hshort, hclamped⟩⟩

/-- A line in IDLE takes up the move of its programme's mode when its target differs (R62, R63). -/
theorem delayLine_move {s : State} {mode : MoveMode} {c : ChannelId} {l : Line} (h : l.move = .idle) :
    (s.delayLine mode c l).move =
      if (s.delayLine mode c l).tgt = l.cur then .idle else if mode = .slew then .slew else .cutFall := by
  unfold State.delayLine
  generalize s.lineTarget c = t
  cases mode <;> by_cases ht : t.tgt = l.cur <;> simp [slewClass, cutClass, aimLine, h, ht]

section
variable {s : State} {p : ProgId} {d : Nat}

/-- The state after SET DELAY has written the tables, before the lines answer. -/
def State.withDelay (s : State) (p : ProgId) (d : Nat) : State :=
  s.setTables (adjustTables (fun r => { r with dt := d }) p s.tables)

theorem withDelay_active (s : State) (p : ProgId) (d : Nat) :
    (s.withDelay p d).active = adjustBank (fun r => { r with dt := d }) p s.active := activeBank_adjustTables p s.tables

theorem withDelay_record (s : State) (p : ProgId) (d : Nat) :
    (s.withDelay p d).record p = (s.record p).map fun r => { r with dt := d } := by
  unfold State.record
  rw [withDelay_active, adjustBank_programmes, if_pos rfl]

theorem withDelay_regionOf (s : State) (p : ProgId) (d : Nat) (c : ChannelId) :
    (s.withDelay p d).regionOf c = s.regionOf c := by
  unfold State.regionOf
  rw [withDelay_active]
  rfl

theorem withDelay_latencyOf (s : State) (p : ProgId) (d : Nat) (c : ChannelId) :
    (s.withDelay p d).latencyOf c = s.latencyOf c := by
  have hsel : (s.withDelay p d).selectedOf c = s.selectedOf c := by
    unfold State.selectedOf
    rw [withDelay_active]
    rfl
  unfold State.latencyOf
  rw [hsel]
  rfl

/-- Every present record lists as before when a live adjust writes a field that is not its member list. -/
theorem withDelay_programmeOf (s : State) (p : ProgId) (d : Nat) (c : ChannelId) :
    programmeOf (s.withDelay p d).active c = programmeOf s.active c := by
  unfold programmeOf
  refine congrArg (fun f => allProgs.find? f) (funext fun q => ?_)
  rw [withDelay_active, adjustBank_programmes]
  by_cases hq : q = p
  · subst hq
    rw [if_pos rfl]
    cases s.active.programmes[q] <;> rfl
  · rw [if_neg hq]

/-- What SET DELAY does to the lines (R72): with D_t changed each member's line answers by the move mode, else none moves. -/
theorem answerDelay_lines (s : State) (p : ProgId) (d : Nat) :
    let u := s.withDelay p d
    let t := u.answerDelay p ((s.record p).map (·.dt))
    t = { u with lines := t.lines } ∧
    ∀ c : ChannelId, t.lines[c] = match s.record p with
      | some r => if r.dt ≠ d ∧ r.lists c = true then u.delayLine r.moveMode c s.lines[c] else s.lines[c]
      | none => s.lines[c] := by
  intro u t
  have hu : u.record p = (s.record p).map fun r => { r with dt := d } := withDelay_record s p d
  cases hr : s.record p with
  | none =>
    rw [hr] at hu
    have ht : t = u := answerDelay_absent hu _
    rw [ht]
    exact ⟨rfl, fun c => rfl⟩
  | some r =>
    rw [hr] at hu
    by_cases hd : r.dt = d
    · have ht : t = u := answerDelay_same hu (by rw [hr, ← hd]; rfl)
      rw [ht]
      refine ⟨rfl, fun c => ?_⟩
      simp only [hd, ne_eq, not_true_eq_false, false_and, if_false]
      rfl
    · have ht : t = r.members.foldl (fun (s : State) m => s.recomputeDelay r.moveMode m.channel) u :=
        answerDelay_changed hu (by rw [hr]; exact fun e => hd (Option.some.inj e))
      obtain ⟨hframe, hlines⟩ := recomputeMembers_lines r.moveMode r.members u
      rw [← ht] at hframe hlines
      refine ⟨hframe, fun c => ?_⟩
      rw [hlines c]
      simp only [ne_eq, hd, not_false_eq_true, true_and]
      rfl

end

/-- Settles O39: the write of the two banks, and the lines of the members by their move mode. -/
theorem liveAdjusts : Obligations.LiveAdjusts := by
  refine ⟨?delay, ?targetAndTrim⟩
  case delay =>
    intro s m rest p a d1 d0 h ha hm d banks
    subst ha
    have hbanks : banksWritten s.tables p = banks := banksWritten_eq s p
    have hrun := setDelay_eq (s.takeCommand rest) p d1 d0
    rw [adjustRefusal_eq, State.takeCommand_tables, hbanks] at hrun
    refine ⟨fun hbank => ?_, fun hbank hnone => ?_, fun hbank hsome => ?_⟩
    · refine congrArg Host.Outcome.next (exec_of_ready h rfl ?_)
      rw [hm, hrun, if_pos hbank]
      rfl
    · refine congrArg Host.Outcome.next (exec_of_ready h rfl ?_)
      rw [hm, hrun, if_neg (not_not.2 hbank), if_pos hnone]
      rfl
    · rw [if_neg (not_not.2 hbank), if_neg hsome] at hrun
      obtain ⟨hframe, hlines⟩ := answerDelay_lines (s.takeCommand rest) p d
      have hrun' : (s.takeCommand rest).setDelay [BitVec.ofNat 8 p.val, d1, d0] =
          (((s.takeCommand rest).withDelay p d).answerDelay p (((s.takeCommand rest).record p).map (·.dt)),
            [0#8, BitVec.ofNat 8 p.val, d1, d0, BitVec.ofNat 8 banks]) := hrun
      rw [← hm] at hrun'
      generalize ((s.takeCommand rest).withDelay p d).answerDelay p (((s.takeCommand rest).record p).map (·.dt)) = t at *
      have htables : t.tables = adjustTables (fun r => { r with dt := d }) p s.tables := by rw [hframe]; rfl
      have hline (r : ProgRecord) (hr : s.record p = some r) (c : ChannelId) :
          t.lines[c] = if r.dt ≠ d ∧ r.lists c = true then
            ((s.takeCommand rest).withDelay p d).delayLine r.moveMode c s.lines[c] else s.lines[c] := by
        rw [hlines c, State.takeCommand_record, hr]
        rfl
      have habsent (hr : s.record p = none) (c : ChannelId) : t.lines[c] = s.lines[c] := by
        rw [hlines c, State.takeCommand_record, hr]
        rfl
      have hsel (c : ChannelId) : t.selectedOf c = ((s.takeCommand rest).withDelay p d).selectedOf c := by
        rw [hframe]; rfl
      have haims (c : ChannelId) (l : Line) : Safety.AimsAt t c l ↔ Safety.AimsAt ((s.takeCommand rest).withDelay p d) c l :=
        aimsAt_of_selected (by rw [hframe]) (by rw [hframe]) (hsel c) l
      refine ⟨t, congrArg Host.Outcome.next (exec_of_ready h rfl hrun'), ?_, fun r c hr hne hsound hc => ?_,
        fun r c hr hne hc => ?_, fun r c hr hno => ?_, fun hr => ?_, fun c => ?_, ?_⟩
      · rw [htables]
        exact adjusted_adjustTables _ p s.tables
      · have hmoved := (hline r hr c).trans (if_pos ⟨hne, hc⟩)
        have hanswer := delayLine_answers ((s.takeCommand rest).withDelay p d) r.moveMode c s.lines[c]
        have haim : Safety.AimsAt ((s.takeCommand rest).withDelay p d) c t.lines[c] := by
          rw [hmoved]
          cases hmode : r.moveMode with
          | slew => rw [hmode] at hanswer; exact (hanswer.1 rfl).1
          | cut => rw [hmode] at hanswer; exact (hanswer.2 rfl).1
        have hprog : programmeOf ((s.takeCommand rest).withDelay p d).active c = some p := by
          rw [withDelay_programmeOf]
          exact programmeOf_of_sound (s := s.takeCommand rest) hsound ⟨r, hr, hc⟩
        have hrec : ((s.takeCommand rest).withDelay p d).recordOf c = some { r with dt := d } := by
          rw [recordOf_eq hprog, withDelay_record, State.takeCommand_record, hr]
          rfl
        obtain ⟨htgt, hflags⟩ := aimsAt_record hrec haim
        rw [withDelay_latencyOf, withDelay_regionOf] at htgt hflags
        refine ⟨htgt, hflags, fun hidle => ?_⟩
        rw [hmoved]
        exact delayLine_move hidle
      · have hmoved := (hline r hr c).trans (if_pos ⟨hne, hc⟩)
        obtain ⟨hslew, hcut⟩ := delayLine_answers ((s.takeCommand rest).withDelay p d) r.moveMode c s.lines[c]
        rw [← hmoved] at hslew hcut
        exact ⟨fun hmode => ⟨(haims c _).2 (hslew hmode).1, (hslew hmode).2⟩,
          fun hmode => ⟨(haims c _).2 (hcut hmode).1, (hcut hmode).2⟩⟩
      · refine (hline r hr c).trans (if_neg fun hboth => ?_)
        rcases hno with hd | hl
        · exact hboth.1 hd
        · rw [hl] at hboth
          exact absurd hboth.2 nofun
      · exact Vector.ext fun i hi => habsent hr ⟨i, hi⟩
      · cases hr : s.record p with
        | none =>
          rw [habsent hr c]
          exact ⟨rfl, rfl, rfl⟩
        | some r =>
          rw [hline r hr c]
          split
          · exact delayLine_access _ _ c _
          · exact ⟨rfl, rfl, rfl⟩
      · rw [hframe]; rfl
  case targetAndTrim =>
    intro s m rest p a v1 v0 ha hm v banks
    subst ha
    have hbanks : banksWritten s.tables p = banks := banksWritten_eq s p
    refine ⟨fun h => ?_, fun h => ?_⟩
    · have hrun := setTarget_eq (s.takeCommand rest) p v1 v0
      rw [← hm, adjustRefusal_eq, State.takeCommand_tables, hbanks] at hrun
      refine ⟨fun hout => ?_, fun hlo hhi hbank => ?_, fun hlo hhi hbank hsome => ?_⟩
      · refine congrArg Host.Outcome.next (exec_of_ready h rfl ?_)
        rw [hrun, if_pos (by omega)]
      · refine congrArg Host.Outcome.next (exec_of_ready h rfl ?_)
        rw [hrun, if_neg (not_not.2 ⟨hlo, hhi⟩), if_pos hbank]
        rfl
      · rw [if_neg (not_not.2 ⟨hlo, hhi⟩), if_neg (not_not.2 hbank), if_neg hsome] at hrun
        exact ⟨_, congrArg Host.Outcome.next (exec_of_ready h rfl hrun), adjusted_adjustTables _ p s.tables, rfl⟩
    · have hrun := setTrim_eq (s.takeCommand rest) p v1 v0
      rw [← hm, adjustRefusal_eq, State.takeCommand_tables, hbanks] at hrun
      refine ⟨fun hout => ?_, fun hlo hhi hbank => ?_, fun hlo hhi hbank hsome => ?_⟩
      · refine congrArg Host.Outcome.next (exec_of_ready h rfl ?_)
        rw [hrun, if_pos (by omega)]
      · refine congrArg Host.Outcome.next (exec_of_ready h rfl ?_)
        rw [hrun, if_neg (not_not.2 ⟨hlo, hhi⟩), if_pos hbank]
        rfl
      · rw [if_neg (not_not.2 ⟨hlo, hhi⟩), if_neg (not_not.2 hbank), if_neg hsome] at hrun
        exact ⟨_, congrArg Host.Outcome.next (exec_of_ready h rfl hrun), adjusted_adjustTables _ p s.tables, rfl⟩

end Sys2Proof.Machine
end

section
/-! PROOF. RESTORE PRIMARY and the commands of the alarm engine: O41, O42. -/

namespace Sys2Proof.Machine

/-! ### RESTORE PRIMARY (R27, R180) -/

section
variable (s : State)

/-- A restore touches the sources, the lines and the switched sets alone. -/
def SourcesRestored (t : State) : Prop :=
  t = { s with sources := t.sources, lines := t.lines, alarm := t.alarm } ∧
  ∀ r : RuleId, t.alarm.rules[r] = { s.alarm.rules[r] with switched := t.alarm.rules[r].switched }

theorem restoreChannel_restored {t : State} (c : ChannelId) (h : SourcesRestored s t) :
    SourcesRestored s (t.restoreChannel c) := by
  obtain ⟨hframe, hrules⟩ := h
  have halarm : (t.changeSource c .primary).alarm = t.alarm := by rw [changeSource_frame]
  refine ⟨?_, fun r => ?_⟩
  · unfold State.restoreChannel State.leaveSwitched
    rw [changeSource_frame, State.setAlarm, hframe]
  · have hrule := leaveSwitched_rule (t.changeSource c .primary) c r
    rw [halarm] at hrule
    unfold State.restoreChannel
    rw [hrule, hrules r]

/-- What a restore can change of a channel: its source state, its line, and its place in the switched sets. -/
def restoreView (t : State) (c : ChannelId) : SourceState × Line × (RuleId → Bool) :=
  (t.sources[c], t.lines[c], fun r => hasMember t.alarm.rules[r].switched c)

theorem restoreChannel_switched (t : State) (c d : ChannelId) (r : RuleId) :
    hasMember (t.restoreChannel c).alarm.rules[r].switched d = (hasMember t.alarm.rules[r].switched d && decide (d ≠ c)) := by
  have halarm : (t.changeSource c .primary).alarm = t.alarm := by rw [changeSource_frame]
  have hrule := leaveSwitched_rule (t.changeSource c .primary) c r
  rw [halarm] at hrule
  unfold State.restoreChannel
  rw [hrule, hasMember_erase]

theorem restoreView_restoreChannel_ne (t : State) {c d : ChannelId} (h : d ≠ c) :
    restoreView (t.restoreChannel c) d = restoreView t d := by
  have hv : c.val ≠ d.val := fun e => h (Fin.ext e.symm)
  have hsource : (t.restoreChannel c).sources[d] = t.sources[d] := by
    change (t.changeSource c .primary).sources[d] = t.sources[d]
    rw [changeSource_sources]
    exact Vector.getElem_set_ne _ _ hv
  have hline : (t.restoreChannel c).lines[d] = t.lines[d] := (changeSource_lines t c d .primary).2.2.2 h
  have hswitched (r : RuleId) : hasMember (t.restoreChannel c).alarm.rules[r].switched d =
      hasMember t.alarm.rules[r].switched d := by
    rw [restoreChannel_switched, decide_eq_true h, Bool.and_true]
  exact congrArg₂ Prod.mk hsource (congrArg₂ Prod.mk hline (funext hswitched))

theorem restoreChannel_follows (t : State) (c : ChannelId) : Safety.LineFollows t (t.restoreChannel c) c :=
  lineFollows_congr (s' := t) (t' := t.changeSource c .primary) ⟨rfl, rfl⟩ ⟨rfl, rfl⟩ rfl rfl rfl
    (changeSource_follows t c .primary c)

theorem restoreChannel_source (t : State) (c : ChannelId) : (t.restoreChannel c).sources[c] = .primary := by
  change (t.changeSource c .primary).sources[c] = .primary
  rw [changeSource_sources]
  exact Vector.getElem_set_self _

/-- The channels of a set, each restored in its turn. -/
def State.restoreSet (mask : Nat) : State := (channelsOf mask).foldl State.restoreChannel s

theorem restoreSet_eq_forChannels (mask : Nat) : s.restoreSet mask =
    forChannels (fun t c => if mask.testBit c.val then t.restoreChannel c else t) s :=
  List.foldl_filter

theorem restoreSet_restored (mask : Nat) : SourcesRestored s (s.restoreSet mask) := by
  rw [restoreSet_eq_forChannels]
  refine forChannels_keeps (P := SourcesRestored s) (fun t c ht => ?_) ⟨rfl, fun _ => rfl⟩
  split
  · exact restoreChannel_restored s c ht
  · exact ht

theorem restoreSet_item (mask : Nat) (c : ChannelId) :
    (s.restoreSet mask).sources[c] = (if mask.testBit c.val then .primary else s.sources[c]) ∧
    (∀ r : RuleId, hasMember (s.restoreSet mask).alarm.rules[r].switched c =
      (hasMember s.alarm.rules[r].switched c && !mask.testBit c.val)) ∧
    Safety.LineFollows s (s.restoreSet mask) c := by
  have hrestored := (restoreSet_restored s mask).1
  obtain ⟨t, ⟨ht, -⟩, hview, hitem⟩ := forChannels_item (view := restoreView)
    (f := fun t c => if mask.testBit c.val then t.restoreChannel c else t) (P := SourcesRestored s)
    (fun t i j h => by
      split
      · exact restoreView_restoreChannel_ne t h
      · rfl)
    (fun t c ht => by
      split
      · exact restoreChannel_restored s c ht
      · exact ht) (s := s) ⟨rfl, fun _ => rfl⟩ c
  rw [← restoreSet_eq_forChannels] at hitem
  obtain ⟨hsource, hline, hswitched⟩ : t.sources[c] = s.sources[c] ∧ t.lines[c] = s.lines[c] ∧
      ∀ r : RuleId, hasMember t.alarm.rules[r].switched c = hasMember s.alarm.rules[r].switched c := by
    injection hview with h1 h2
    injection h2 with h2 h3
    exact ⟨h1, h2, congrFun h3⟩
  by_cases hc : mask.testBit c.val = true
  · rw [if_pos hc] at hitem
    have hswitched' := congrArg (fun v => v.2.2) hitem
    refine ⟨?_, fun r => ?_, ?_⟩
    · rw [if_pos hc]
      exact (congrArg Prod.fst hitem).trans (restoreChannel_source t c)
    · refine (congrFun hswitched' r).trans ((restoreChannel_switched t c c r).trans ?_)
      simp [hc]
    · refine lineFollows_congr (s' := t) (t' := t.restoreChannel c) ⟨hsource.symm, hline.symm⟩
        ⟨congrArg Prod.fst hitem, congrArg (fun v => v.2.1) hitem⟩ (by rw [ht]) ?_ ?_ (restoreChannel_follows t c)
      · rw [hrestored, (restoreChannel_restored t c ⟨rfl, fun _ => rfl⟩).1, ht]
      · rw [hrestored, (restoreChannel_restored t c ⟨rfl, fun _ => rfl⟩).1, ht]
  · rw [if_neg hc] at hitem
    have hsame : restoreView (s.restoreSet mask) c = restoreView s c := hitem.trans hview
    refine ⟨?_, fun r => ?_, ?_⟩
    · rw [if_neg hc]
      exact congrArg Prod.fst hsame
    · refine (congrFun (congrArg (fun v => v.2.2) hsame) r).trans ?_
      simp [restoreView, hc]
    · exact lineFollows_congr (s' := s) (t' := s) ⟨rfl, rfl⟩
        ⟨congrArg Prod.fst hsame, congrArg (fun v => v.2.1) hsame⟩ rfl (by rw [hrestored]) (by rw [hrestored])
        (lineFollows_refl s c)

end

/-- The set of the reply names the channels of the list whose selected source has changed (R180). -/
theorem hasMember_changedSources (s t : State) (cs : List ChannelId) (c : ChannelId) :
    hasMember (BitVec.ofNat 32 (changedSources s t cs)) c = true ↔ c ∈ cs ∧ t.selectedOf c ≠ s.selectedOf c := by
  have hfold : ∀ (cs : List ChannelId) (a : BitVec 32),
      hasMember (cs.foldl (fun (a : BitVec 32) c => if s.selectedOf c = t.selectedOf c then a else insertMember a c) a) c =
        true ↔ hasMember a c = true ∨ (c ∈ cs ∧ t.selectedOf c ≠ s.selectedOf c) := by
    intro cs
    induction cs with
    | nil => simp
    | cons d cs ih =>
      intro a
      rw [List.foldl_cons, ih]
      split
      · rename_i hd
        constructor
        · rintro (h | ⟨h, hne⟩)
          · exact .inl h
          · exact .inr ⟨List.mem_cons_of_mem _ h, hne⟩
        · rintro (h | ⟨h, hne⟩)
          · exact .inl h
          · rcases List.mem_cons.1 h with rfl | h
            · exact absurd hd.symm hne
            · exact .inr ⟨h, hne⟩
      · rename_i hd
        rw [hasMember_insert, Bool.or_eq_true, decide_eq_true_eq, List.mem_cons]
        constructor
        · rintro ((h | rfl) | ⟨h, hne⟩)
          · exact .inl h
          · exact .inr ⟨.inl rfl, fun e => hd e.symm⟩
          · exact .inr ⟨.inr h, hne⟩
        · rintro (h | ⟨rfl | h, hne⟩)
          · exact .inl (.inl h)
          · exact .inl (.inr rfl)
          · exact .inr ⟨h, hne⟩
  unfold changedSources
  rw [BitVec.ofNat_toNat, BitVec.setWidth_eq, hfold]
  simp [hasMember]

/-- The four bytes of a 32-bit set, put together, are the set. -/
theorem beBytes_four_eq (w : BitVec 32) :
    ∃ w3 w2 w1 w0 : Byte, beBytes 4 w.toNat = [w3, w2, w1, w0] ∧ (w3 ++ w2 ++ w1 ++ w0 : BitVec 32) = w := by
  refine ⟨_, _, _, _, beBytes_four w, BitVec.eq_of_toNat_eq ?_⟩
  rw [← fromBytes_four, ← beBytes_four, fromBytes_beBytes]
  exact Nat.mod_eq_of_lt w.isLt

/-- Settles O42: the named channels return to PRIMARY and leave every switched set, and each line follows (R27, R180). -/
theorem restorePrimaryRule : Obligations.RestorePrimaryRule := by
  intro s m rest a b c d h hm set
  have hset : fromBytes [a, b, c, d] = set.toNat := fromBytes_four a b c d
  have hrun : (s.takeCommand rest).restorePrimary m.payload = if set = 0#32 then (s.takeCommand rest, [4#8]) else
      ((s.takeCommand rest).restoreSet set.toNat,
        okReply (beBytes 4 (changedSources (s.takeCommand rest) ((s.takeCommand rest).restoreSet set.toNat)
          (channelsOf set.toNat)))) := by
    have hfield : fieldAt [a, b, c, d] 0 4 = set.toNat := hset
    rw [hm]
    unfold State.restorePrimary
    rw [if_neg (by simp), hfield]
    by_cases hzero : set = 0#32
    · rw [if_pos hzero, if_pos (by rw [hzero]; rfl)]
      rfl
    · rw [if_neg hzero, if_neg (fun e : set.toNat = 0 => hzero (BitVec.eq_of_toNat_eq e))]
      rfl
  refine ⟨fun hzero => ?_, fun hne => ?_⟩
  · rw [if_pos hzero] at hrun
    exact congrArg Host.Outcome.next (exec_of_ready h rfl hrun)
  · rw [if_neg hne] at hrun
    have hitem := restoreSet_item (s.takeCommand rest) set.toNat
    obtain ⟨hframe, hrules⟩ := restoreSet_restored (s.takeCommand rest) set.toNat
    generalize (s.takeCommand rest).restoreSet set.toNat = t at *
    obtain ⟨w3, w2, w1, w0, hbytes, hw⟩ := beBytes_four_eq
      (BitVec.ofNat 32 (changedSources (s.takeCommand rest) t (channelsOf set.toNat)))
    have hreply : okReply (beBytes 4 (changedSources (s.takeCommand rest) t (channelsOf set.toNat))) =
        [0#8, w3, w2, w1, w0] := by
      rw [← hbytes]
      unfold changedSources
      rw [BitVec.ofNat_toNat, BitVec.setWidth_eq]
      rfl
    have hsource (ch : ChannelId) : t.sources[ch] = if hasMember set ch then .primary else s.sources[ch] := (hitem ch).1
    rw [hreply] at hrun
    refine ⟨t, w3, w2, w1, w0, congrArg Host.Outcome.next (exec_of_ready h rfl hrun), fun ch => ?_,
      fun ch => (hitem ch).2.2, hsource, fun r ch => (hitem ch).2.1 r, fun r => ?_, hframe⟩
    · have hmem : ch ∈ channelsOf set.toNat ↔ hasMember set ch = true := by
        simp [channelsOf, hasMember, BitVec.getLsbD, allChannels]
      rw [hw, hasMember_changedSources, hmem]
      refine and_iff_right_iff_imp.2 fun hne' => ?_
      by_contra hout
      refine hne' ?_
      have hstand := (hsource ch).trans (if_neg hout)
      have htables : t.tables = s.tables := by rw [hframe]; rfl
      simp only [State.selectedOf, State.active, hstand, htables] <;> rfl
    · rw [hrules r]
      exact ⟨rfl, rfl⟩

/-! ### Rules taken to QUIET (R128, R129, R133) -/

/-- Where a release has left a channel, another release leaves it (R25). -/
theorem revertedSource_again {s u : State} {c : ChannelId} (hT : u.tables = s.tables) (hC : u.cv = s.cv)
    (hu : u.sources[c] = Safety.revertedSource s c) : Safety.revertedSource u c = u.sources[c] := by
  unfold Safety.revertedSource at hu ⊢
  rw [show u.active = s.active by unfold State.active; rw [hT], hC, hu]
  generalize s.active.slotMap[c] = e
  by_cases hb : s.sources[c] = .backup ∧ e.manual = false
  · rw [if_pos hb]
    refine if_neg fun h => ?_
    revert h
    cases e.primary with
    | none => simp
    | some src => simp only; split <;> simp
  · rw [if_neg hb, if_neg hb]

/-- What a release leaves of a channel depends on its source state, the tables and the converters (R25). -/
theorem revertedSource_congr {s u : State} {c : ChannelId} (hT : u.tables = s.tables) (hC : u.cv = s.cv)
    (hu : u.sources[c] = s.sources[c]) : Safety.revertedSource u c = Safety.revertedSource s c := by
  unfold Safety.revertedSource
  rw [show u.active = s.active by unfold State.active; rw [hT], hC, hu]

theorem selectedOf_congr {s u : State} {c : ChannelId} (hT : u.tables = s.tables) (hu : u.sources[c] = s.sources[c]) :
    u.selectedOf c = s.selectedOf c := by
  simp only [State.selectedOf, State.active, hT, hu]

/-- Where a line aims depends on the tables, its selected source and the latencies of the converters (R61). -/
theorem aimsAt_of_latency {s t : State} {c : ChannelId} (hT : t.tables = s.tables) (hC : ∀ l : LinkId, t.cv[l].lc = s.cv[l].lc)
    (hsel : t.selectedOf c = s.selectedOf c) (l : Line) : Safety.AimsAt t c l ↔ Safety.AimsAt s c l := by
  have h1 : t.recordOf c = s.recordOf c := by simp [State.recordOf, State.record, State.active, hT]
  have h2 : t.regionOf c = s.regionOf c := by simp [State.regionOf, State.active, hT]
  have h3 : t.latencyOf c = s.latencyOf c := by
    unfold State.latencyOf
    rw [hsel]
    split
    · exact hC _
    · rfl
  simp only [Safety.AimsAt, h1, h2, h3]

/-- A line that follows its source over a step that leaves it, before or after one that may move it (R70). -/
theorem lineFollows_trans {s u t : State} {c : ChannelId} (hT : t.tables = u.tables)
    (hC : ∀ l : LinkId, t.cv[l].lc = u.cv[l].lc) (hu : Safety.LineFollows s u c) (ht : Safety.LineFollows u t c)
    (hstand : u.selectedOf c = s.selectedOf c ∨ t.selectedOf c = u.selectedOf c) : Safety.LineFollows s t c := by
  rcases hstand with h | h
  · have hline := hu.2 h
    unfold Safety.LineFollows at ht ⊢
    rwa [← h, ← hline]
  · have hline := ht.2 h
    unfold Safety.LineFollows at hu ⊢
    rw [h, hline]
    exact ⟨fun hne => ⟨(aimsAt_of_latency hT hC h _).2 (hu.1 hne).1, (hu.1 hne).2⟩, hu.2⟩

/-- Two releases in turn, of rules that hold what they held before the first, are one release of both (R133). -/
theorem released_trans {s u t : State} {g h : RuleId → Prop} (hu : Safety.Released s u g) (ht : Safety.Released u t h)
    (hT : u.tables = s.tables) (hC : u.cv = s.cv) (hT' : t.tables = u.tables) (hC' : t.cv = u.cv)
    (hheld : ∀ r : RuleId, h r → u.alarm.rules[r] = s.alarm.rules[r]) : Safety.Released s t (fun r => g r ∨ h r) := by
  have hrecord (p : ProgId) : u.record p = s.record p := by simp only [State.record, State.active, hT]
  refine ⟨fun p => ?_, fun c => ?_⟩
  · obtain ⟨hgain, hmem⟩ := hu.1 p
    obtain ⟨hgain', hmem'⟩ := ht.1 p
    refine ⟨?_, fun r => ?_⟩
    · rw [hgain', hgain]
    · rw [hmem', hmem, hrecord]
      constructor
      · rintro ⟨⟨hs, hg⟩, hh⟩
        refine ⟨hs, ?_⟩
        rintro ⟨hg' | hh', hm, hp⟩
        · exact hg ⟨hg', hm, hp⟩
        · exact hh ⟨hh', by rw [hheld r hh']; exact hm, hp⟩
      · rintro ⟨hs, hn⟩
        refine ⟨⟨hs, fun hg => hn ⟨.inl hg.1, hg.2⟩⟩, fun hh => hn ⟨.inr hh.1, ?_, hh.2.2⟩⟩
        rw [← hheld r hh.1]
        exact hh.2.1
  · obtain ⟨hgone, hstay, hline⟩ := hu.2 c
    obtain ⟨hgone', hstay', hline'⟩ := ht.2 c
    have hexists : (∃ r, h r ∧ hasMember u.alarm.rules[r].switched c = true) ↔
        ∃ r, h r ∧ hasMember s.alarm.rules[r].switched c = true :=
      exists_congr fun r => and_congr_right fun hr => by rw [hheld r hr]
    rw [hexists] at hgone' hstay'
    by_cases h1 : ∃ r, g r ∧ hasMember s.alarm.rules[r].switched c = true
    · have hsource := hgone h1
      have hsame : t.sources[c] = u.sources[c] := by
        by_cases h2 : ∃ r, h r ∧ hasMember s.alarm.rules[r].switched c = true
        · exact (hgone' h2).trans (revertedSource_again hT hC hsource)
        · exact hstay' h2
      refine ⟨fun _ => hsame.trans hsource, fun hn => ?_, ?_⟩
      · obtain ⟨r, hr, hm⟩ := h1
        exact absurd ⟨r, .inl hr, hm⟩ hn
      · exact lineFollows_trans hT' (fun _ => by rw [hC']) hline hline' (.inr (selectedOf_congr hT' hsame))
    · have hsource := hstay h1
      refine ⟨fun he => ?_, fun hn => ?_, ?_⟩
      · obtain ⟨r, hr, hm⟩ := he
        have h2 := hr.elim (fun hg => absurd ⟨r, hg, hm⟩ h1) id
        exact (hgone' ⟨r, h2, hm⟩).trans (revertedSource_congr hT hC hsource)
      · exact (hstay' fun ⟨r, hr, hm⟩ => hn ⟨r, .inr hr, hm⟩).trans hsource
      · exact lineFollows_trans hT' (fun _ => by rw [hC']) hline hline' (.inl (selectedOf_congr hT hsource))

theorem released_congr {s t : State} {g h : RuleId → Prop} (hgh : ∀ r, g r ↔ h r) (ht : Safety.Released s t g) :
    Safety.Released s t h := by
  rwa [show h = g from funext fun r => propext (hgh r).symm]

theorem released_none (s : State) : Safety.Released s s (fun _ => False) :=
  ⟨fun p => ⟨rfl, fun r => by simp⟩, fun c => ⟨fun ⟨_, h, _⟩ => h.elim, fun _ => rfl, lineFollows_refl s c⟩⟩

/-- A release speaks of gain states, sources, lines, tables and converters alone. -/
theorem released_of_same {s t t' : State} {g : RuleId → Prop} (ht : Safety.Released s t g) (hG : t'.gain = t.gain)
    (hS : t'.sources = t.sources) (hL : t'.lines = t.lines) (hT : activeBank t'.tables = activeBank t.tables) (hC : t'.cv = t.cv) :
    Safety.Released s t' g := by
  have hsel (c : ChannelId) : t'.selectedOf c = t.selectedOf c := by simp only [State.selectedOf, State.active, hT, hS]
  have haims (c : ChannelId) (l : Line) : Safety.AimsAt t' c l ↔ Safety.AimsAt t c l := by
    have h1 : t'.recordOf c = t.recordOf c := by simp [State.recordOf, State.record, State.active, hT]
    have h2 : t'.regionOf c = t.regionOf c := by simp [State.regionOf, State.active, hT]
    have h3 : t'.latencyOf c = t.latencyOf c := by simp [State.latencyOf, hsel, hC]
    simp only [Safety.AimsAt, h1, h2, h3]
  refine ⟨fun p => by rw [hG]; exact ht.1 p, fun c => ?_⟩
  obtain ⟨hgone, hstay, hline⟩ := ht.2 c
  rw [hS]
  refine ⟨hgone, hstay, ?_⟩
  unfold Safety.LineFollows
  rw [hsel, hL]
  exact ⟨fun hne => ⟨(haims c _).2 (hline.1 hne).1, (hline.1 hne).2⟩, hline.2⟩

/-- A rule has gone to QUIET: its actions released, a CLEARED notice of its record with the value, and nothing else. -/
def ClearedWith (s t : State) (r : RuleId) (value : Int) : Prop :=
  Safety.Released s t (fun q => q = r) ∧
  t.alarm.rules[r] = { state := .quiet, timer := 0, ack := false, muted := 0#8, switched := 0#32 } ∧
  (∀ q : RuleId, q ≠ r → t.alarm.rules[q] = s.alarm.rules[q]) ∧ t.alarm.due = s.alarm.due ∧
  t.port = Safety.noted s s.port r .cleared value ∧
  t = { s with gain := t.gain, alarm := t.alarm, sources := t.sources, lines := t.lines, port := t.port }

theorem clearRule_cleared (s : State) (r : RuleId) (value : Int) :
    ClearedWith s (s.clearRule r s.tables.ruleRecords[r] value) r value := by
  have hreleased := releaseAction_released s r
  have hframe := releaseAction_frame s r
  have halarm := releaseAction_alarm s r
  have hrule := clearRule_rule s r s.tables.ruleRecords[r] value
  have hdue := clearRule_due s r s.tables.ruleRecords[r] value
  have hrun : s.clearRule r s.tables.ruleRecords[r] value =
      ((s.releaseAction r).putRule r .quiet 0 false).setPort (Safety.noted s s.port r .cleared value) := by
    have hnote := makeNotice_notes ((s.releaseAction r).putRule r .quiet 0 false) r .cleared value
    have htables : ((s.releaseAction r).putRule r .quiet 0 false).tables = s.tables := by
      change (s.releaseAction r).tables = s.tables; rw [hframe]
    have hport : ((s.releaseAction r).putRule r .quiet 0 false).port = s.port := by
      change (s.releaseAction r).port = s.port; rw [hframe]
    have htb : ((s.releaseAction r).putRule r .quiet 0 false).tb = s.tb := by
      change (s.releaseAction r).tb = s.tb; rw [hframe]
    rw [hport] at hnote
    simp only [Safety.noted, htables, htb] at hnote
    exact hnote
  rw [hrun] at hrule hdue ⊢
  generalize s.releaseAction r = u at *
  refine ⟨released_of_same hreleased rfl rfl rfl rfl rfl, hrule, fun q hq => ?_, hdue, rfl, ?_⟩
  · have hother : u.alarm.rules[q] = s.alarm.rules[q] := by
      rw [halarm]
      exact State.setRule_get_ne s r q _ hq
    exact (State.setRule_get_ne u r q _ hq).trans hother
  · unfold State.setPort State.putRule State.setRule
    rw [hframe]

/-! ### ACK ALARM (R129, R179) -/

/-- The rule holds its actions past its condition. -/
def State.holds (s : State) (r : RuleId) : Bool := s.alarm.rules[r].state == .held

/-- The rule's ack flag can be set. -/
def State.runs (s : State) (r : RuleId) : Bool :=
  s.alarm.rules[r].state == .active || s.alarm.rules[r].state == .easing

/-- ACK ALARM has taken the rules of the list: the running ones have their ack flags set, the held ones have gone to QUIET with
their actions released and a CLEARED notice each, in the order of the list. -/
def AckedAll (s t : State) (rs : List RuleId) : Prop :=
  (∀ r ∈ rs, s.runs r = true → t.alarm.rules[r] = { s.alarm.rules[r] with ack := true }) ∧
  (∀ r ∈ rs, s.holds r = true → t.alarm.rules[r] = { state := .quiet, timer := 0, ack := false, muted := 0#8, switched := 0#32 }) ∧
  (∀ r : RuleId, ¬ (r ∈ rs ∧ (s.runs r = true ∨ s.holds r = true)) → t.alarm.rules[r] = s.alarm.rules[r]) ∧
  (∃ value : RuleId → Int,
    (∀ r ∈ rs, s.tables.ruleRecords[r].kind ≠ .delay → value r = Safety.valueRead s s.tables.ruleRecords[r]) ∧
    t.port = (rs.filter s.holds).foldl (fun q r => Safety.noted s q r .cleared (value r)) s.port) ∧
  Safety.Released s t (fun r => r ∈ rs ∧ s.holds r = true) ∧ t.alarm.due = s.alarm.due ∧
  t = { s with gain := t.gain, alarm := t.alarm, sources := t.sources, lines := t.lines, port := t.port }

/-- The value of a rule whose kind is not DELAY stands while tables, records, converters, windows and timebase do (R136). -/
theorem valueRead_congr {s t : State} {e : RuleRecord} (hkind : e.kind ≠ .delay)
    (ht : t = { s with gain := t.gain, alarm := t.alarm, sources := t.sources, lines := t.lines, port := t.port }) :
    Safety.valueRead t e = Safety.valueRead s e := by
  rw [ht]
  unfold Safety.valueRead
  cases hk : e.kind with
  | delay => exact absurd hk hkind
  | _ => rfl

theorem ackRule_quiet {a : Acked} {r : RuleId} (hr : a.state.runs r = false) (hh : a.state.holds r = false) :
    ackRule a r = a := by
  unfold State.runs State.holds at *
  unfold ackRule
  cases h : a.state.alarm.rules[r].state <;> simp_all

theorem ackRule_runs {a : Acked} {r : RuleId} (hr : a.state.runs r = true) :
    ackRule a r = { state := a.state.setRule r { a.state.alarm.rules[r] with ack := true }, taken := a.taken,
                    flags := a.flags + 1 } := by
  unfold State.runs at *
  unfold ackRule
  cases h : a.state.alarm.rules[r].state <;> simp_all

theorem ackRule_holds {a : Acked} {r : RuleId} (hh : a.state.holds r = true) :
    ackRule a r = { state := a.state.clearRule r a.state.tables.ruleRecords[r]
                      (a.state.noticeValue a.state.tables.ruleRecords[r]), taken := a.taken + 1, flags := a.flags } := by
  unfold State.holds at *
  unfold ackRule
  cases h : a.state.alarm.rules[r].state <;> simp_all

theorem ackedAll_nil (s : State) : AckedAll s s [] :=
  ⟨fun _ h => absurd h List.not_mem_nil, fun _ h => absurd h List.not_mem_nil, fun _ _ => rfl,
    ⟨fun _ => 0, fun _ h => absurd h List.not_mem_nil, rfl⟩,
    released_congr (fun _ => by simp) (released_none s), rfl, rfl⟩

theorem not_runs_of_holds {s : State} {r : RuleId} (h : s.holds r = true) : s.runs r = false := by
  unfold State.holds State.runs at *
  rw [eq_of_beq h]
  rfl

theorem ackedAll_quiet {s : State} {r : RuleId} (hr : s.runs r = false) (hh : s.holds r = false) : AckedAll s s [r] := by
  have hnone : ∀ q ∈ [r], s.runs q = false ∧ s.holds q = false := fun q hq => by
    rw [List.mem_singleton.1 hq]; exact ⟨hr, hh⟩
  refine ⟨fun q hq h => ?_, fun q hq h => ?_, fun _ _ => rfl,
    ⟨fun q => Safety.valueRead s s.tables.ruleRecords[q], fun _ _ _ => rfl, ?_⟩, ?_, rfl, rfl⟩
  · rw [(hnone q hq).1] at h; exact absurd h Bool.false_ne_true
  · rw [(hnone q hq).2] at h; exact absurd h Bool.false_ne_true
  · rw [List.filter_cons_of_neg (by simp [hh])]; rfl
  · refine released_congr (fun q => ?_) (released_none s)
    refine ⟨False.elim, fun h => ?_⟩
    rw [(hnone q h.1).2] at h
    exact absurd h.2 Bool.false_ne_true

theorem ackedAll_runs {s : State} {r : RuleId} (hr : s.runs r = true) (hh : s.holds r = false) :
    AckedAll s (s.setRule r { s.alarm.rules[r] with ack := true }) [r] := by
  refine ⟨fun q hq _ => ?_, fun q hq h => ?_, fun q hq => ?_,
    ⟨fun q => Safety.valueRead s s.tables.ruleRecords[q], fun _ _ _ => rfl, ?_⟩, ?_, rfl, rfl⟩
  · rw [List.mem_singleton.1 hq]; exact State.setRule_get_self s r _
  · rw [List.mem_singleton.1 hq, hh] at h; exact absurd h Bool.false_ne_true
  · refine State.setRule_get_ne s r q _ fun h => hq ⟨List.mem_singleton.2 h, .inl ?_⟩
    rw [h]; exact hr
  · rw [List.filter_cons_of_neg (by simp [hh])]; rfl
  · refine released_of_same (released_congr (fun q => ?_) (released_none s)) rfl rfl rfl rfl rfl
    refine ⟨False.elim, fun h => ?_⟩
    rw [List.mem_singleton.1 h.1, hh] at h
    exact absurd h.2 Bool.false_ne_true

theorem ackedAll_holds {s : State} {r : RuleId} (hh : s.holds r = true) :
    AckedAll s (s.clearRule r s.tables.ruleRecords[r] (s.noticeValue s.tables.ruleRecords[r])) [r] := by
  obtain ⟨hreleased, hrule, hother, hdue, hport, hframe⟩ :=
    clearRule_cleared s r (s.noticeValue s.tables.ruleRecords[r])
  generalize s.clearRule r s.tables.ruleRecords[r] (s.noticeValue s.tables.ruleRecords[r]) = t at *
  refine ⟨fun q hq h => ?_, fun q hq _ => ?_, fun q hq => ?_,
    ⟨fun q => Safety.valueRead s s.tables.ruleRecords[q], fun _ _ _ => rfl, ?_⟩, ?_, hdue, hframe⟩
  · rw [List.mem_singleton.1 hq, not_runs_of_holds hh] at h; exact absurd h Bool.false_ne_true
  · rw [List.mem_singleton.1 hq]; exact hrule
  · exact hother q fun h => hq ⟨List.mem_singleton.2 h, .inr (by rw [h]; exact hh)⟩
  · rw [hport, noticeValue_reads, List.filter_cons_of_pos (by exact hh)]; rfl
  · exact released_congr (fun q => by simp only [List.mem_singleton]; exact ⟨fun h => ⟨h, by rw [h]; exact hh⟩, And.left⟩) hreleased

/-- One rule acknowledged, and then the others of the list (R129). -/
theorem ackedAll_cons {s u t : State} {r : RuleId} {rs : List RuleId} (hr : r ∉ rs) (hu : AckedAll s u [r])
    (ht : AckedAll u t rs) : AckedAll s t (r :: rs) := by
  obtain ⟨hrun, hheld, hother, ⟨value, hvalue, hport⟩, hreleased, hdue, hframe⟩ := hu
  obtain ⟨hrun', hheld', hother', ⟨value', hvalue', hport'⟩, hreleased', hdue', hframe'⟩ := ht
  have hrest (q : RuleId) (hq : q ∈ rs) : u.alarm.rules[q] = s.alarm.rules[q] :=
    hother q fun h => hr (by rwa [List.mem_singleton.1 h.1] at hq)
  have hfirst : t.alarm.rules[r] = u.alarm.rules[r] := hother' r fun h => hr h.1
  have hruns (q : RuleId) (hq : q ∈ rs) : u.runs q = s.runs q := by unfold State.runs; rw [hrest q hq]
  have hholds (q : RuleId) (hq : q ∈ rs) : u.holds q = s.holds q := by unfold State.holds; rw [hrest q hq]
  have htables : u.tables = s.tables := by rw [hframe]
  have hcv : u.cv = s.cv := by rw [hframe]
  have htb : u.tb = s.tb := by rw [hframe]
  have hnoted : ∀ p q v, Safety.noted u p q .cleared v = Safety.noted s p q .cleared v := fun p q v => by
    simp only [Safety.noted, htables, htb]
  have hfilter : rs.filter u.holds = rs.filter s.holds := List.filter_congr hholds
  refine ⟨fun q hq h => ?_, fun q hq h => ?_, fun q hq => ?_,
    ⟨fun q => if q = r then value q else value' q, fun q hq hkind => ?_, ?_⟩, ?_, hdue'.trans hdue, ?_⟩
  · rcases List.mem_cons.1 hq with rfl | hq
    · exact hfirst.trans (hrun q (List.mem_singleton.2 rfl) h)
    · rw [hrun' q hq (by rw [hruns q hq]; exact h), hrest q hq]
  · rcases List.mem_cons.1 hq with rfl | hq
    · exact hfirst.trans (hheld q (List.mem_singleton.2 rfl) h)
    · exact hheld' q hq (by rw [hholds q hq]; exact h)
  · refine (hother' q fun h => ?_).trans (hother q fun h => ?_)
    · rw [hruns q h.1, hholds q h.1] at h
      exact hq ⟨List.mem_cons_of_mem _ h.1, h.2⟩
    · exact hq ⟨List.mem_cons.2 (.inl (List.mem_singleton.1 h.1)), h.2⟩
  · rcases List.mem_cons.1 hq with rfl | hq
    · exact (if_pos rfl).trans (hvalue q (List.mem_singleton.2 rfl) hkind)
    · have hne : q ≠ r := fun h => hr (h ▸ hq)
      refine (if_neg hne).trans ((hvalue' q hq (by rw [htables]; exact hkind)).trans ?_)
      rw [valueRead_congr (by rw [htables]; exact hkind) hframe, htables]
  · have hcongr : ∀ (l : List RuleId) (p : Port), (∀ q ∈ l, q ∈ rs) →
        l.foldl (fun p q => Safety.noted s p q .cleared (if q = r then value q else value' q)) p =
          l.foldl (fun p q => Safety.noted u p q .cleared (value' q)) p := by
      intro l
      induction l with
      | nil => exact fun _ _ => rfl
      | cons q l ih =>
        intro p hl
        have hne : q ≠ r := fun h => hr (h ▸ hl q List.mem_cons_self)
        rw [List.foldl_cons, List.foldl_cons, ih _ fun x hx => hl x (List.mem_cons_of_mem _ hx), if_neg hne, hnoted]
    rw [hport', hfilter, ← hcongr (rs.filter s.holds) u.port fun q hq => List.mem_of_mem_filter hq, hport]
    cases hh : s.holds r
    · rw [List.filter_cons_of_neg (by simp [hh]), List.filter_cons_of_neg (by simp [hh])]
      rfl
    · rw [List.filter_cons_of_pos (by exact hh), List.filter_cons_of_pos (by exact hh)]
      simp only [List.filter_nil, List.foldl_cons, List.foldl_nil, if_true]
  · refine released_congr (fun q => ?_) (released_trans hreleased hreleased' htables hcv (by rw [hframe']) (by rw [hframe'])
      fun q hq => hrest q hq.1)
    simp only [List.mem_cons, List.not_mem_nil, or_false]
    constructor
    · rintro (⟨hq, hh⟩ | ⟨hq, hh⟩)
      · exact ⟨.inl hq, hh⟩
      · exact ⟨.inr hq, by rwa [hholds q hq] at hh⟩
    · rintro ⟨hq | hq, hh⟩
      · exact .inl ⟨hq, hh⟩
      · exact .inr ⟨hq, by rwa [hholds q hq]⟩
  · rw [hframe', hframe]

/-- ACK ALARM of the rules of a list without repetition (R129). -/
theorem ackRules_acked : ∀ (rs : List RuleId) (a : Acked), rs.Nodup →
    AckedAll a.state (rs.foldl ackRule a).state rs ∧
    (rs.foldl ackRule a).taken = a.taken + (rs.filter a.state.holds).length ∧
    (rs.foldl ackRule a).flags = a.flags + (rs.filter a.state.runs).length
  | [], a, _ => ⟨ackedAll_nil a.state, rfl, rfl⟩
  | r :: rs, a, hnodup => by
    obtain ⟨hr, hrest⟩ := List.nodup_cons.1 hnodup
    obtain ⟨hacked, htaken, hflags⟩ := ackRules_acked rs (ackRule a r) hrest
    have hone : AckedAll a.state (ackRule a r).state [r] ∧
        (ackRule a r).taken = a.taken + (if a.state.holds r then 1 else 0) ∧
        (ackRule a r).flags = a.flags + (if a.state.runs r then 1 else 0) := by
      by_cases hh : a.state.holds r = true
      · have hrun := not_runs_of_holds hh
        rw [ackRule_holds hh, if_pos hh, hrun]
        exact ⟨ackedAll_holds hh, rfl, rfl⟩
      · have hh' := Bool.eq_false_iff.2 hh
        rw [if_neg hh]
        by_cases hrun : a.state.runs r = true
        · rw [ackRule_runs hrun, if_pos hrun]
          exact ⟨ackedAll_runs hrun hh', rfl, rfl⟩
        · rw [ackRule_quiet (Bool.eq_false_iff.2 hrun) hh', if_neg hrun]
          exact ⟨ackedAll_quiet (Bool.eq_false_iff.2 hrun) hh', rfl, rfl⟩
    obtain ⟨hone, htaken1, hflags1⟩ := hone
    have hsame (q : RuleId) (hq : q ∈ rs) : (ackRule a r).state.alarm.rules[q] = a.state.alarm.rules[q] :=
      hone.2.2.1 q fun h => hr (by rwa [List.mem_singleton.1 h.1] at hq)
    have hholds : rs.filter (ackRule a r).state.holds = rs.filter a.state.holds :=
      List.filter_congr fun q hq => by unfold State.holds; rw [hsame q hq]
    have hruns : rs.filter (ackRule a r).state.runs = rs.filter a.state.runs :=
      List.filter_congr fun q hq => by unfold State.runs; rw [hsame q hq]
    refine ⟨ackedAll_cons hr hone hacked, ?_, ?_⟩
    · rw [List.foldl_cons, htaken, htaken1, hholds, List.filter_cons]
      split <;> simp [Nat.add_assoc, Nat.add_comm 1]
    · rw [List.foldl_cons, hflags, hflags1, hruns, List.filter_cons]
      split <;> simp [Nat.add_assoc, Nat.add_comm 1]

/-! ### The three commands (R121, R129, R179) -/

/-- What a command byte names when it is a rule's number. -/
theorem byteAt_ruleByte (r : RuleId) : byteAt [BitVec.ofNat 8 r.val] 0 = r.val := by
  simp only [byteAt, List.getD_cons_zero, BitVec.toNat_ofNat]
  exact Nat.mod_eq_of_lt (by omega)

theorem rule_ofNat_val (r : RuleId) : (Fin.ofNat 32 r.val : RuleId) = r := Fin.ext (Nat.mod_eq_of_lt r.isLt)

theorem ackAlarm_eq (s : State) (a : Byte) :
    s.ackAlarm [a] = if 31 < a.toNat ∧ a.toNat ≠ 255 then (s, [3#8]) else
      (((ackNames a.toNat).foldl ackRule { state := s, taken := 0, flags := 0 }).state,
        [0#8, BitVec.ofNat 8 ((ackNames a.toNat).foldl ackRule { state := s, taken := 0, flags := 0 }).taken,
          BitVec.ofNat 8 ((ackNames a.toNat).foldl ackRule { state := s, taken := 0, flags := 0 }).flags]) := by
  unfold State.ackAlarm
  rw [if_neg (by simp)]
  have hbyte : byteAt [a] 0 = a.toNat := rfl
  simp only [hbyte, beBytes_one] <;> rfl

/-- A record or DISABLE RULE puts a rule to QUIET where nothing is due (R121). -/
theorem quietRecord_settled {s : State} {r : RuleId} (hdue : s.alarm.due = []) :
    s.quietRecord r s.tables.ruleRecords[r] =
      if raised s.alarm.rules[r].state = true then
        s.clearRule r s.tables.ruleRecords[r] (s.noticeValue s.tables.ruleRecords[r])
      else s.setRule r { s.alarm.rules[r] with state := .quiet, timer := 0, ack := false } := by
  unfold State.quietRecord
  rw [settleAlarms_nil hdue]
  rfl

/-- After a record has been written or disabled its rule is in QUIET, its timer at 0 and its ack flag clear (R121). -/
theorem quietRecord_rule (s : State) (r : RuleId) (x : RuleRecord) :
    (s.quietRecord r x).alarm.rules[r].state = .quiet ∧ (s.quietRecord r x).alarm.rules[r].timer = 0 ∧
      (s.quietRecord r x).alarm.rules[r].ack = false := by
  unfold State.quietRecord
  simp only
  split
  · rw [clearRule_rule]
    exact ⟨rfl, rfl, rfl⟩
  · unfold State.putRule
    rw [State.setRule_get_self]
    exact ⟨rfl, rfl, rfl⟩

/-- A rule that has gone to QUIET, whatever is then written into the record of a rule (R121). -/
theorem cleared_of_tables {s t t' : State} {r : RuleId} {value : Int} (h : ClearedWith s t r value)
    (hvalue : value = Safety.valueRead s s.tables.ruleRecords[r]) (ht : t' = { t with tables := t'.tables })
    (hactive : activeBank t'.tables = activeBank t.tables) : Safety.Cleared s t' r := by
  obtain ⟨hreleased, hrule, hother, hdue, hport, hframe⟩ := h
  have halarm : t'.alarm = t.alarm := by rw [ht]
  refine ⟨released_of_same hreleased (by rw [ht]) (by rw [ht]) (by rw [ht]) hactive (by rw [ht]), ?_, ?_, ?_, ?_, ?_⟩
  · rw [halarm]; exact hrule
  · rw [halarm]; exact hother
  · rw [halarm]; exact hdue
  · rw [← hvalue, ← hport, ht]
  · rw [ht, hframe]

/-- A raised rule whose record is written or disabled where nothing is due goes to QUIET with its release and its notice (R121). -/
theorem quietRecord_cleared {s t : State} {r : RuleId} (hdue : s.alarm.due = []) (hraised : raised s.alarm.rules[r].state = true)
    (ht : t = { s.quietRecord r s.tables.ruleRecords[r] with tables := t.tables })
    (hactive : activeBank t.tables = activeBank (s.quietRecord r s.tables.ruleRecords[r]).tables) : Safety.Cleared s t r := by
  rw [quietRecord_settled hdue, if_pos hraised] at ht hactive
  exact cleared_of_tables (clearRule_cleared s r _) (noticeValue_reads s _) ht hactive

theorem enableRule_eq (s : State) (r : RuleId) :
    s.enableRule [BitVec.ofNat 8 r.val] =
      (if s.tables.ruleRecords[r].enabled then s else s.setTables (setEnabled r true s.tables), s.enableReply r) := by
  unfold State.enableRule
  rw [if_neg (by simp)]
  simp only [byteAt_ruleByte, rule_ofNat_val, if_neg (show ¬ 31 < r.val by omega)]

theorem disableRule_eq (s : State) (r : RuleId) :
    s.disableRule [BitVec.ofNat 8 r.val] =
      (if s.tables.ruleRecords[r].enabled then
        (s.quietRecord r s.tables.ruleRecords[r]).setTables
          (setEnabled r false (s.quietRecord r s.tables.ruleRecords[r]).tables)
      else s, s.enableReply r) := by
  unfold State.disableRule
  rw [if_neg (by simp)]
  simp only [byteAt_ruleByte, rule_ofNat_val, if_neg (show ¬ 31 < r.val by omega)]

/-- Settles O41: ACK ALARM rule by rule and for all, ENABLE RULE and DISABLE RULE (R121, R129, R179). -/
theorem alarmCommands : Obligations.AlarmCommands := by
  refine ⟨fun s m rest r a h => ⟨fun ha hm => ?_, ?_, fun hlow hhigh hm => ?_⟩, fun s m rest r a ha hm =>
    ⟨fun h => ⟨fun hoff => ?_, fun hon => ?_⟩, fun h => ⟨fun hoff => ?_, fun hon => ?_⟩⟩⟩
  · subst ha
    have hval : (BitVec.ofNat 8 r.val).toNat = r.val := by
      rw [BitVec.toNat_ofNat]; exact Nat.mod_eq_of_lt (by omega)
    have hnames : ackNames r.val = [r] := by
      unfold ackNames
      rw [if_neg (by omega), rule_ofNat_val]
    have hrun := ackAlarm_eq (s.takeCommand rest) (BitVec.ofNat 8 r.val)
    rw [hval, if_neg (by omega), hnames, ← hm] at hrun
    simp only [List.foldl_cons, List.foldl_nil] at hrun
    refine ⟨fun hstate => ?_, fun hstate => ?_, fun hstate => ?_⟩
    · have hruns : (s.takeCommand rest).runs r = true := by
        change s.runs r = true
        unfold State.runs
        rcases hstate with e | e <;> rw [e] <;> rfl
      rw [ackRule_runs hruns] at hrun
      exact congrArg Host.Outcome.next (exec_of_ready h rfl hrun)
    · have hquiet : (s.takeCommand rest).runs r = false ∧ (s.takeCommand rest).holds r = false := by
        change s.runs r = false ∧ s.holds r = false
        unfold State.runs State.holds
        rcases hstate with e | e <;> rw [e] <;> exact ⟨rfl, rfl⟩
      rw [ackRule_quiet hquiet.1 hquiet.2] at hrun
      exact congrArg Host.Outcome.next (exec_of_ready h rfl hrun)
    · have hholds : (s.takeCommand rest).holds r = true := by
        change s.holds r = true
        unfold State.holds
        rw [hstate]; rfl
      rw [ackRule_holds hholds] at hrun
      have hcleared := clearRule_cleared (s.takeCommand rest) r ((s.takeCommand rest).noticeValue (s.takeCommand rest).tables.ruleRecords[r])
      refine ⟨_, congrArg Host.Outcome.next (exec_of_ready h rfl hrun), ?_,
        cleared_of_tables hcleared (noticeValue_reads _ _) rfl rfl⟩
      rw [hcleared.2.2.2.2.2]; rfl
  · intro ha hm held running
    have hrun := ackAlarm_eq (s.takeCommand rest) a
    have hval : a.toNat = 255 := by rw [ha]; rfl
    rw [hval, if_neg (by omega), show ackNames 255 = allRules from rfl, ← hm] at hrun
    obtain ⟨hacked, htaken, hflags⟩ :=
      ackRules_acked allRules { state := s.takeCommand rest, taken := 0, flags := 0 } (List.nodup_finRange 32)
    rw [htaken, hflags, Nat.zero_add, Nat.zero_add] at hrun
    obtain ⟨hrunning, hheld, hother, ⟨value, hvalue, hport⟩, hreleased, hdue, hframe⟩ := hacked
    have hmemRun (q : RuleId) : q ∈ running ↔ s.runs q = true := by
      simp only [running, List.mem_filter, allRules, List.mem_finRange, true_and] <;> rfl
    have hmemHeld (q : RuleId) : q ∈ held ↔ s.holds q = true := by
      simp only [held, List.mem_filter, allRules, List.mem_finRange, true_and] <;> rfl
    refine ⟨_, congrArg Host.Outcome.next (exec_of_ready h rfl hrun),
      fun q hq => hrunning q (List.mem_finRange q) ((hmemRun q).1 hq),
      fun q hq => hheld q (List.mem_finRange q) ((hmemHeld q).1 hq), fun q hr hh => hother q fun hq => ?_,
      ⟨value, fun q hq hkind => hvalue q (List.mem_finRange q) hkind, hport⟩, ?_, hdue, hframe⟩
    · exact hq.2.elim (fun e => hr ((hmemRun q).2 e)) fun e => hh ((hmemHeld q).2 e)
    · refine released_congr (fun q => ?_) hreleased
      exact ⟨fun hq => (hmemHeld q).2 hq.2, fun hq => ⟨List.mem_finRange q, (hmemHeld q).1 hq⟩⟩
  · have hrun := ackAlarm_eq (s.takeCommand rest) a
    rw [if_pos ⟨by omega, by omega⟩, ← hm] at hrun
    exact congrArg Host.Outcome.next (exec_of_ready h rfl hrun)
  · have hrun := enableRule_eq (s.takeCommand rest) r
    rw [← ha, ← hm, if_neg (by rw [State.takeCommand_tables, hoff]; exact Bool.false_ne_true)] at hrun
    have hreply : (s.takeCommand rest).enableReply r = [0#8, a, 0#8] := by
      unfold State.enableReply
      rw [State.takeCommand_tables, hoff, beBytes_one, beBytes_one, ← ha]; rfl
    rw [hreply] at hrun
    exact congrArg Host.Outcome.next (exec_of_ready h rfl hrun)
  · have hrun := enableRule_eq (s.takeCommand rest) r
    rw [← ha, ← hm, if_pos (by rw [State.takeCommand_tables, hon])] at hrun
    have hreply : (s.takeCommand rest).enableReply r = [0#8, a, 1#8] := by
      unfold State.enableReply
      rw [State.takeCommand_tables, hon, beBytes_one, beBytes_one, ← ha]; rfl
    rw [hreply] at hrun
    exact congrArg Host.Outcome.next (exec_of_ready h rfl hrun)
  · have hrun := disableRule_eq (s.takeCommand rest) r
    rw [← ha, ← hm, if_neg (by rw [State.takeCommand_tables, hoff]; exact Bool.false_ne_true)] at hrun
    have hreply : (s.takeCommand rest).enableReply r = [0#8, a, 0#8] := by
      unfold State.enableReply
      rw [State.takeCommand_tables, hoff, beBytes_one, beBytes_one, ← ha]; rfl
    rw [hreply] at hrun
    exact congrArg Host.Outcome.next (exec_of_ready h rfl hrun)
  · have hrun := disableRule_eq (s.takeCommand rest) r
    rw [← ha, ← hm, if_pos (by rw [State.takeCommand_tables, hon])] at hrun
    have hreply : (s.takeCommand rest).enableReply r = [0#8, a, 1#8] := by
      unfold State.enableReply
      rw [State.takeCommand_tables, hon, beBytes_one, beBytes_one, ← ha]; rfl
    rw [hreply] at hrun
    obtain ⟨hstate, htimer, hack⟩ := quietRecord_rule (s.takeCommand rest) r (s.takeCommand rest).tables.ruleRecords[r]
    have htables : ((s.takeCommand rest).quietRecord r (s.takeCommand rest).tables.ruleRecords[r]).tables = s.tables := by
      rw [quietRecord_rules]; rfl
    refine ⟨_, congrArg Host.Outcome.next (exec_of_ready h rfl hrun), ?_, hstate, htimer, hack, fun hdue hraised => ?_,
      fun hdue hraised => ?_⟩
    · rw [State.setTables_tables, htables]
      rfl
    · exact quietRecord_cleared (s := s.takeCommand rest) hdue hraised rfl rfl
    · rw [quietRecord_settled (s := s.takeCommand rest) hdue]
      change (if raised s.alarm.rules[r].state = true then _ else _ : State).setTables _ = _
      rw [if_neg (by rw [hraised]; exact Bool.false_ne_true)]
      rfl

end Sys2Proof.Machine
end

section
/-! PROOF. Tables written: O36, O37. -/

namespace Sys2Proof.Machine

/-! ### Reading cells back -/

section
variable {α : Type} [DecidableEq α] {z : α}

theorem readCell_below {a : Nat} : ∀ {m : Cells α}, cellsWf z m = true → (∀ c ∈ m.head?, a < c.1) → readCell z m a = z
  | [], _, _ => rfl
  | (b, v) :: rest, h, ha => by
    obtain ⟨-, hhead, hrest⟩ := (cellsWf_cons b v rest).1 h
    have hab : a < b := ha (b, v) rfl
    rw [readCell, if_neg (Nat.ne_of_lt hab)]
    exact readCell_below hrest fun c hc => Nat.lt_trans hab (hhead c hc)

omit [DecidableEq α] in
theorem readCell_putCell (a b : Nat) (x : α) : ∀ m : Cells α,
    readCell z (putCell m a x) b = if b = a then x else readCell z m b
  | [] => rfl
  | (k, v) :: rest => by
    unfold putCell
    split
    · rfl
    · split
      · next h =>
        subst h
        simp only [readCell]
        split <;> rfl
      · next h =>
        simp only [readCell]
        rw [readCell_putCell a b x rest]
        by_cases hb : b = a
        · rw [if_pos hb, if_pos hb, if_neg (by omega)]
        · rw [if_neg hb, if_neg hb]

theorem readCell_dropCell (a b : Nat) : ∀ {m : Cells α}, cellsWf z m = true →
    readCell z (dropCell m a) b = if b = a then z else readCell z m b
  | [], _ => by simp [dropCell, readCell]
  | (k, v) :: rest, h => by
    obtain ⟨-, hhead, hrest⟩ := (cellsWf_cons k v rest).1 h
    unfold dropCell
    split
    · next hk =>
      subst hk
      rw [readCell]
      by_cases hb : b = a
      · subst hb
        rw [if_pos rfl]
        exact readCell_below hrest hhead
      · rw [if_neg hb, if_neg hb]
    · next hk =>
      simp only [readCell]
      rw [readCell_dropCell a b hrest]
      by_cases hb : b = a
      · rw [if_pos hb, if_pos hb, if_neg (by omega)]
      · rw [if_neg hb, if_neg hb]

/-- A cell written reads as what was written, and every other cell as it did (R57). -/
theorem readCell_writeCell {m : Cells α} (h : cellsWf z m = true) (a b : Nat) (x : α) :
    readCell z (writeCell z m a x) b = if b = a then x else readCell z m b := by
  unfold writeCell
  split
  · next hx => rw [readCell_dropCell a b h, hx]
  · exact readCell_putCell a b x m

end

/-! ### One entry written (R31, R121, R168) -/

theorem writeEntry_linkConfig (s : State) (l : LinkId) (c : LinkConfig) : s.writeEntry l.val (.linkConfig c) =
    if s.modeOf l = c.mode then s.setTables { s.tables with linkConfig := s.tables.linkConfig.set l.val c }
    else (s.setTables { s.tables with linkConfig := s.tables.linkConfig.set l.val c }).darken l := by
  have hl : (Fin.ofNat 4 l.val : LinkId) = l := Fin.ext (Nat.mod_eq_of_lt l.isLt)
  unfold State.writeEntry putEntry
  simp only [hl]

theorem writeEntry_alarmRule (s : State) (r : RuleId) (x : RuleRecord) : s.writeEntry r.val (.alarmRule x) =
    (s.quietRecord r s.tables.ruleRecords[r]).setTables
      { (s.quietRecord r s.tables.ruleRecords[r]).tables with
          ruleRecords := (s.quietRecord r s.tables.ruleRecords[r]).tables.ruleRecords.set r.val x } := by
  unfold State.writeEntry putEntry
  simp only [rule_ofNat_val]

theorem enderDark_state (c : Conv) : (enterDark c).state = .dark := by
  rw [enterDark_eq]
  split
  · assumption
  · rfl

theorem quietRecord_tables (s : State) (r : RuleId) (x : RuleRecord) : (s.quietRecord r x).tables = s.tables := by
  rw [quietRecord_rules]

theorem settleAlarms_tables (s : State) : s.settleAlarms.tables = s.tables := by
  rw [settleAlarms_rules]

/-- A record that goes to QUIET takes what is due first, once (R121, log entry 12). -/
theorem quietRecord_settleAlarms (s : State) (r : RuleId) (x : RuleRecord) :
    s.settleAlarms.quietRecord r x = s.quietRecord r x := by
  unfold State.quietRecord
  rw [settleAlarms_nil (settleAlarms_due s)]

/-! ### The order of SET_SELECT (R51) -/

/-- No disorder is found exactly where each enabled bound is greater than those before it. -/
theorem firstDisorder_none_iff : ∀ (es : List (Nat × Option SelectEntry)) (last : Option Nat),
    firstDisorder (es.map fun x => (x.1, some x.2)) last = none ↔
      (∀ b ∈ last, ∀ e ∈ es.filterMap Prod.snd, b < e.bound) ∧ (es.filterMap Prod.snd).Pairwise (·.bound < ·.bound)
  | [], last => by simp [firstDisorder]
  | (i, none) :: es, last => by
    rw [List.map_cons, firstDisorder, firstDisorder_none_iff es last]
    rfl
  | (i, some e) :: es, last => by
    have ih := firstDisorder_none_iff es (some e.bound)
    rw [List.map_cons, show ((i, some e) :: es).filterMap Prod.snd = e :: es.filterMap Prod.snd from rfl, List.pairwise_cons]
    have hiff : firstDisorder (es.map fun x => (x.1, some x.2)) (some e.bound) = none ↔
        (∀ x ∈ es.filterMap Prod.snd, e.bound < x.bound) ∧ (es.filterMap Prod.snd).Pairwise (·.bound < ·.bound) := by
      rw [ih]
      simp
    cases last with
    | none =>
      rw [firstDisorder, hiff]
      simp
    | some b =>
      rw [firstDisorder]
      split
      · next hb =>
        refine iff_of_false nofun fun h => ?_
        have := h.1 b rfl e List.mem_cons_self
        omega
      · next hb =>
        rw [hiff]
        refine ⟨fun h => ⟨fun b' hb' x hx => ?_, h⟩, And.right⟩
        cases hb'
        rcases List.mem_cons.1 hx with rfl | hx
        · omega
        · have := h.1 x hx
          omega

/-- The four entries of SET_SELECT, as they would stand, are in order exactly where the bounds of the enabled ones rise (R51). -/
theorem selectOrder_iff (f : Fin 4 → Option SelectEntry) :
    firstDisorder ((List.finRange 4).map fun i => (i.val, some (f i))) none = none ↔
      ∀ (i j : Fin 4) (x y : SelectEntry), i < j → f i = some x → f j = some y → x.bound < y.bound := by
  have hmap : ((List.finRange 4).map fun i => (i.val, some (f i))) =
      ((List.finRange 4).map fun i => (i.val, f i)).map fun x => (x.1, some x.2) := by
    rw [List.map_map]; rfl
  rw [hmap, firstDisorder_none_iff]
  have hlist : ((List.finRange 4).map fun i => (i.val, f i)).filterMap Prod.snd = (List.finRange 4).filterMap f := by
    rw [List.filterMap_map]; rfl
  rw [hlist, List.pairwise_filterMap]
  have hpair : (List.finRange 4).Pairwise (fun i j => ∀ x, f i = some x → ∀ y, f j = some y → x.bound < y.bound) ↔
      ∀ i j : Fin 4, i < j → ∀ x, f i = some x → ∀ y, f j = some y → x.bound < y.bound := by
    rw [← List.ofFn_id, List.pairwise_ofFn]
    rfl
  constructor
  · rintro ⟨-, h⟩ i j x y hij hx hy
    exact hpair.1 h i j hij x hx y hy
  · intro h
    exact ⟨nofun, hpair.2 fun i j hij x hx y hy => h i j x y hij hx hy⟩

theorem readSelect_recordBytes {e : Option SelectEntry} (h : (Record.select e).valid = true) :
    readSelect (recordBytes (.select e)) = some e := by
  have hread : (readSelect (recordBytes (.select e))).map Record.select = some (.select e) := readRecord_recordBytes h
  obtain ⟨e', he, hrecord⟩ := Option.map_eq_some_iff.1 hread
  injection hrecord with heq
  rw [he, heq]

/-- Settles O37: a LINK_CONFIG write, an ALARM_RULES write and the order of SET_SELECT (R31, R51, R121). -/
theorem unbankedTableRules : Obligations.UnbankedTableRules := by
  refine ⟨fun s => ⟨fun l c => ⟨fun hne => ?_, fun heq => ?_, fun k hk => ?_⟩, fun r x => ?_⟩, fun t es hvalid => ?_⟩
  · rw [writeEntry_linkConfig, if_neg hne]
    unfold State.darken
    rw [State.setCv_get_self]
    exact enderDark_state _
  · rw [writeEntry_linkConfig, if_pos heq]
    rfl
  · rw [writeEntry_linkConfig]
    split
    · rfl
    · exact State.setCv_get_ne _ l k _ hk
  · rw [writeEntry_alarmRule]
    obtain ⟨hstate, htimer, hack⟩ := quietRecord_rule s r s.tables.ruleRecords[r]
    refine ⟨hstate, htimer, hack, ?_, fun hdue hraised => ?_, fun hdue hraised => ?_, ?_⟩
    · rw [writeEntry_alarmRule, settleAlarms_tables, quietRecord_settleAlarms]
    · exact quietRecord_cleared hdue hraised rfl rfl
    · rw [quietRecord_settled hdue, if_neg (by rw [hraised]; exact Bool.false_ne_true)]
      rfl
    · rw [State.setTables_tables, quietRecord_tables]
  · have hread (i : Fin 4) : selectAfter t 0 (es.toList.map fun e => recordBytes (.select e)) i = some es[i] := by
      have hget : (es.toList.map fun e => recordBytes (.select e))[i.val]? = some (recordBytes (.select es[i])) := by
        simp
      unfold selectAfter
      rw [if_neg (Nat.not_lt_zero _), Nat.sub_zero, hget]
      exact readSelect_recordBytes (hvalid i)
    unfold faultyEntry
    simp only [hread]
    exact selectOrder_iff fun i => es[i]

/-! ### Records written (R140, R168) -/

/-- Records put into a table, one after another. -/
def putEntries (t : Tables) (first : Nat) : List Record → Tables
  | [] => t
  | r :: rest => putEntries (putEntry t first r) (first + 1) rest

theorem writeEntry_tables (s : State) (i : Nat) (r : Record) : (s.writeEntry i r).tables = putEntry s.tables i r := by
  cases r with
  | linkConfig c =>
    unfold State.writeEntry
    simp only
    split <;> rfl
  | alarmRule x =>
    unfold State.writeEntry
    rw [State.setTables_tables, quietRecord_tables]
  | _ => rfl

theorem writeRecords_tables : ∀ (rs : List Record) (s : State) (first : Nat),
    (s.writeRecords first rs).tables = putEntries s.tables first rs
  | [], _, _ => rfl
  | r :: rs, s, first => by
    rw [State.writeRecords, writeRecords_tables rs, writeEntry_tables]
    rfl

/-- What a write leaves of the tables whatever the record: the active bank, its marker and the take (R140). -/
def SameTake (t t' : Tables) : Prop :=
  activeBank t' = activeBank t ∧ t'.marker = t.marker ∧ t'.bankState = t.bankState ∧
    t'.pendingInstant = t.pendingInstant ∧ t'.copyPos = t.copyPos

theorem sameTake_setStandbyBank (t : Tables) (b : Routing) : SameTake t (setStandbyBank t b) := by
  refine ⟨activeBank_setStandbyBank t b, ?_, ?_, ?_, ?_⟩ <;>
    (unfold setStandbyBank; split <;> rfl)

theorem putEntry_sameTake (t : Tables) (i : Nat) (r : Record) : SameTake t (putEntry t i r) := by
  cases r with
  | slotMap e => exact sameTake_setStandbyBank t _
  | outputMap o => exact sameTake_setStandbyBank t _
  | programme p => exact sameTake_setStandbyBank t _
  | region g => exact sameTake_setStandbyBank t _
  | _ => exact ⟨rfl, rfl, rfl, rfl, rfl⟩

theorem putEntries_sameTake : ∀ (rs : List Record) (t : Tables) (first : Nat), SameTake t (putEntries t first rs)
  | [], _, _ => ⟨rfl, rfl, rfl, rfl, rfl⟩
  | r :: rs, t, first => by
    obtain ⟨h1, h2, h3, h4, h5⟩ := putEntry_sameTake t first r
    obtain ⟨k1, k2, k3, k4, k5⟩ := putEntries_sameTake rs (putEntry t first r) (first + 1)
    exact ⟨k1.trans h1, k2.trans h2, k3.trans h3, k4.trans h4, k5.trans h5⟩

theorem putEntry_filters (t : Tables) (i : Nat) (r : Record) (h : cellsWf 0 t.filters = true) :
    cellsWf 0 (putEntry t i r).filters = true := by
  have hstandby (b : Routing) : (setStandbyBank t b).filters = t.filters := by
    unfold setStandbyBank; split <;> rfl
  cases r with
  | slotMap e => exact (hstandby _).symm ▸ h
  | outputMap o => exact (hstandby _).symm ▸ h
  | programme p => exact (hstandby _).symm ▸ h
  | region g => exact (hstandby _).symm ▸ h
  | filter v => exact writeCell_wf _ _ _ h
  | _ => exact h

/-- Entry `k` of a table, as the commands read and write it: in the standby bank or in the one copy of an unbanked table. -/
def writtenOf (t : Tables) (n : TableName) (k : Nat) : Record := entryOf t (standbyBank t) n k

/-- A record leaves every entry of every other table (R168). -/
theorem writtenOf_putEntry_other (t : Tables) (i k : Nat) (r : Record) {n : TableName} (h : n ≠ r.table) :
    writtenOf (putEntry t i r) n k = writtenOf t n k := by
  have hstandby (b : Routing) : (setStandbyBank t b).linkConfig = t.linkConfig ∧ (setStandbyBank t b).filters = t.filters ∧
      (setStandbyBank t b).setSelect = t.setSelect ∧ (setStandbyBank t b).weighting = t.weighting ∧
      (setStandbyBank t b).ruleRecords = t.ruleRecords := by
    unfold setStandbyBank; split <;> exact ⟨rfl, rfl, rfl, rfl, rfl⟩
  unfold writtenOf
  cases r <;> cases n <;> simp only [ne_eq, Record.table, not_true_eq_false] at h <;>
    simp only [putEntry, entryOf, standbyBank_setStandbyBank, hstandby, putBanked] <;> rfl

theorem entry_set_ofNat {α : Type} (f : α → Record) (n : Nat) [NeZero n] (v : Vector α n) (x : α) {i k : Nat} (hi : i < n)
    (hk : k < n) : f (v.set (Fin.ofNat n i).val x (Fin.ofNat n i).isLt)[Fin.ofNat n k] =
      if k = i then f x else f v[Fin.ofNat n k] := by
  have hik : ((Fin.ofNat n i).val = (Fin.ofNat n k).val) ↔ k = i := by
    rw [Fin.val_ofNat, Fin.val_ofNat, Nat.mod_eq_of_lt hi, Nat.mod_eq_of_lt hk]
    exact eq_comm
  simp only [Fin.getElem_fin, Vector.getElem_set, hik]
  split <;> rfl

/-- A record is read back at its own entry, and every other entry of its table stands (R168). -/
theorem writtenOf_putEntry_same {t : Tables} {i k : Nat} (r : Record)
    (hwf : r.table = .filterSets → cellsWf 0 t.filters = true)
    (hi : i < tableSize r.table) (hk : k < tableSize r.table) :
    writtenOf (putEntry t i r) r.table k = if k = i then r else writtenOf t r.table k := by
  unfold writtenOf
  cases r with
  | slotMap e =>
    simp only [putEntry, Record.table, entryOf, standbyBank_setStandbyBank, putBanked]
    exact entry_set_ofNat .slotMap 32 _ e hi hk
  | outputMap o =>
    simp only [putEntry, Record.table, entryOf, standbyBank_setStandbyBank, putBanked]
    exact entry_set_ofNat .outputMap 32 _ o hi hk
  | programme p =>
    simp only [putEntry, Record.table, entryOf, standbyBank_setStandbyBank, putBanked]
    exact entry_set_ofNat .programme 8 _ p hi hk
  | region g =>
    simp only [putEntry, Record.table, entryOf, standbyBank_setStandbyBank, putBanked]
    exact entry_set_ofNat .region 32 _ g hi hk
  | linkConfig c => exact entry_set_ofNat .linkConfig 4 t.linkConfig c hi hk
  | select e => exact entry_set_ofNat .select 4 t.setSelect e hi hk
  | weighting v => exact entry_set_ofNat .weighting 10 t.weighting v hi hk
  | alarmRule x => exact entry_set_ofNat .alarmRule 32 t.ruleRecords x hi hk
  | filter v =>
    simp only [putEntry, Record.table, entryOf, readCell_writeCell (hwf rfl)]
    split <;> rfl

/-- Records written read back in ascending index, and every other entry stands (R140, R168). -/
theorem writtenOf_putEntries {name : TableName} : ∀ (rs : List Record) (t : Tables) (first : Nat),
    cellsWf 0 t.filters = true → (∀ r ∈ rs, r.table = name) → first + rs.length ≤ tableSize name →
    ∀ (n : TableName) (k : Nat), k < tableSize n → writtenOf (putEntries t first rs) n k =
      if n = name then Safety.standing t name first rs k else writtenOf t n k
  | [], t, first, _, _, _, n, k, _ => by
    unfold Safety.standing
    simp only [List.getD_nil]
    split
    · next h => subst h; split <;> rfl
    · rfl
  | r :: rs, t, first, hwf, hname, hsize, n, k, hk => by
    have hr := hname r List.mem_cons_self
    rw [List.length_cons] at hsize
    rw [putEntries, writtenOf_putEntries rs (putEntry t first r) (first + 1) (putEntry_filters t first r hwf)
      (fun x hx => hname x (List.mem_cons_of_mem r hx)) (by omega) n k hk]
    by_cases hn : n = name
    · subst hn
      have hput := writtenOf_putEntry_same (t := t) (i := first) (k := k) r (fun _ => hwf) (by rw [hr]; omega) (by rw [hr]; exact hk)
      rw [hr] at hput
      rw [if_pos rfl, if_pos rfl]
      unfold Safety.standing
      change (if first + 1 ≤ k then rs.getD (k - (first + 1)) (writtenOf (putEntry t first r) n k) else
        writtenOf (putEntry t first r) n k) = if first ≤ k then (r :: rs).getD (k - first) (writtenOf t n k) else writtenOf t n k
      rw [hput]
      by_cases h1 : first + 1 ≤ k
      · have hkf : k - first = (k - (first + 1)) + 1 := by omega
        rw [if_pos h1, if_pos (show first ≤ k by omega), if_neg (show k ≠ first by omega), hkf, List.getD_cons_succ]
      · rw [if_neg h1]
        by_cases h2 : k = first
        · rw [if_pos h2, if_pos (show first ≤ k by omega), h2, Nat.sub_self, List.getD_cons_zero]
        · rw [if_neg h2, if_neg (show ¬ first ≤ k by omega)]
    · rw [if_neg hn, if_neg hn]
      exact writtenOf_putEntry_other t first k r (by rw [hr]; exact hn)


/-- A write outside LINK_CONFIG and ALARM_RULES changes the tables alone, and one of LINK_CONFIG the converters too (R168). -/
theorem writeRecords_frame : ∀ (rs : List Record) (s : State) (first : Nat), (∀ r ∈ rs, r.table ≠ .alarmRules) →
    s.writeRecords first rs = { s with tables := (s.writeRecords first rs).tables, cv := (s.writeRecords first rs).cv } ∧
    ((∀ r ∈ rs, r.table ≠ .linkConfig) → (s.writeRecords first rs).cv = s.cv)
  | [], s, first, _ => ⟨rfl, fun _ => rfl⟩
  | r :: rs, s, first, hname => by
    have hr := hname r List.mem_cons_self
    have hentry : s.writeEntry first r = { s with tables := (s.writeEntry first r).tables, cv := (s.writeEntry first r).cv } ∧
        (r.table ≠ .linkConfig → (s.writeEntry first r).cv = s.cv) := by
      cases r with
      | linkConfig c =>
        refine ⟨?_, fun h => absurd rfl h⟩
        unfold State.writeEntry
        simp only
        split <;> rfl
      | alarmRule x => exact absurd rfl hr
      | _ => exact ⟨rfl, fun _ => rfl⟩
    obtain ⟨hframe, hcv⟩ := writeRecords_frame rs (s.writeEntry first r) (first + 1)
      fun x hx => hname x (List.mem_cons_of_mem r hx)
    refine ⟨?_, fun hlink => ?_⟩
    · rw [State.writeRecords]
      refine hframe.trans ?_
      rw [hentry.1]
    · rw [State.writeRecords]
      exact (hcv fun x hx => hlink x (List.mem_cons_of_mem r hx)).trans (hentry.2 (hlink r List.mem_cons_self))

/-- LINK_CONFIG records leave the links below the first as they are, and darken exactly the converters whose mode they change
(R31). -/
theorem writeRecords_linkConfig : ∀ (rs : List Record) (s : State) (first : Nat), (∀ r ∈ rs, r.table = .linkConfig) →
    first + rs.length ≤ 4 →
    (∀ l : LinkId, l.val < first → (s.writeRecords first rs).modeOf l = s.modeOf l) ∧
    ∀ l : LinkId, (s.writeRecords first rs).cv[l] =
      if (s.writeRecords first rs).modeOf l = s.modeOf l then s.cv[l] else enterDark s.cv[l]
  | [], s, first, _, _ => ⟨fun _ _ => rfl, fun l => (if_pos rfl).symm⟩
  | r :: rs, s, first, hname, hsize => by
    rw [List.length_cons] at hsize
    have hr := hname r List.mem_cons_self
    cases r with
    | linkConfig c =>
      obtain ⟨l₀, rfl⟩ : ∃ l₀ : LinkId, l₀.val = first := ⟨⟨first, by omega⟩, rfl⟩
      obtain ⟨hbelow, hcv⟩ := writeRecords_linkConfig rs (s.writeEntry l₀.val (.linkConfig c)) (l₀.val + 1)
        (fun x hx => hname x (List.mem_cons_of_mem _ hx)) (by omega)
      have hself : (s.writeEntry l₀.val (.linkConfig c)).modeOf l₀ = c.mode ∧
          (s.writeEntry l₀.val (.linkConfig c)).cv[l₀] = if c.mode = s.modeOf l₀ then s.cv[l₀] else enterDark s.cv[l₀] := by
        rw [writeEntry_linkConfig]
        by_cases hmode : s.modeOf l₀ = c.mode
        · rw [if_pos hmode, if_pos hmode.symm]
          exact ⟨by simp [State.modeOf], rfl⟩
        · rw [if_neg hmode, if_neg fun h => hmode h.symm]
          exact ⟨by simp [State.modeOf, State.darken], State.setCv_get_self _ l₀ _⟩
      have hother (l : LinkId) (hl : l ≠ l₀) : (s.writeEntry l₀.val (.linkConfig c)).modeOf l = s.modeOf l ∧
          (s.writeEntry l₀.val (.linkConfig c)).cv[l] = s.cv[l] := by
        have hv : l₀.val ≠ l.val := fun e => hl (Fin.ext e.symm)
        rw [writeEntry_linkConfig]
        split
        · exact ⟨by simp [State.modeOf, hv], rfl⟩
        · exact ⟨by simp [State.modeOf, State.darken, hv], State.setCv_get_ne _ l₀ l _ hl⟩
      refine ⟨fun l hl => ?_, fun l => ?_⟩
      · exact (hbelow l (by omega)).trans (hother l fun e => by rw [e] at hl; omega).1
      · rw [State.writeRecords, hcv l]
        by_cases hl : l = l₀
        · subst hl
          rw [if_pos (hbelow l (by omega)), hbelow l (by omega), hself.1, hself.2]
        · rw [(hother l hl).1, (hother l hl).2]
    | _ => cases hr

theorem quietRecord_due (s : State) (r : RuleId) (x : RuleRecord) : (s.quietRecord r x).alarm.due = [] := by
  unfold State.quietRecord
  simp only
  split
  · rw [clearRule_due, settleAlarms_due]
  · exact settleAlarms_due s

theorem quietRecord_other {s : State} {r q : RuleId} (hdue : s.alarm.due = []) (hq : q ≠ r) :
    (s.quietRecord r s.tables.ruleRecords[r]).alarm.rules[q] = s.alarm.rules[q] := by
  rw [quietRecord_settled hdue]
  split
  · exact (clearRule_cleared s r _).2.2.1 q hq
  · exact State.setRule_get_ne s r q _ hq

/-- The command, reply and relay queues of the management port. -/
def messageQueues (s : State) : List Message × List Message × List (List Byte) :=
  (s.port.commands, s.port.replies, s.port.relay)

theorem messageQueues_makeNotice (s : State) (r : RuleId) (x : RuleRecord) (e : NoticeEvent) (v : Int) :
    messageQueues (s.makeNotice r x e v) = messageQueues s := by
  unfold messageQueues State.makeNotice Port.pushNotice
  rw [State.setPort_port]
  split <;> rfl

theorem messageQueues_clearRule (s : State) (r : RuleId) (x : RuleRecord) (v : Int) :
    messageQueues (s.clearRule r x v) = messageQueues s := by
  unfold State.clearRule
  rw [messageQueues_makeNotice]
  unfold State.putRule messageQueues
  rw [releaseAction_frame]
  rfl

theorem messageQueues_takeDue (s : State) (d : DueRule) : messageQueues (s.takeDue d) = messageQueues s := by
  unfold State.takeDue
  split
  · exact messageQueues_makeNotice s _ _ _ _
  · unfold State.raiseRule
    rw [messageQueues_makeNotice]
    unfold State.putRule messageQueues
    rw [applyAction_frame]
    rfl
  · unfold State.timerOutRule
    split
    · exact messageQueues_makeNotice _ _ _ _ _
    · exact messageQueues_clearRule _ _ _ _

theorem messageQueues_quietRecord (s : State) (r : RuleId) (x : RuleRecord) :
    messageQueues (s.quietRecord r x) = messageQueues s := by
  have hsettle : messageQueues s.settleAlarms = messageQueues s :=
    foldl_same messageQueues_takeDue s.alarm.due (s.setDue [])
  unfold State.quietRecord
  simp only
  split
  · exact (messageQueues_clearRule _ _ _ _).trans hsettle
  · exact hsettle

/-- Rules have moved: what they hold, the notices and the tables alone may differ. -/
def RulesMoved (s t : State) : Prop :=
  t = { s with tables := t.tables, gain := t.gain, alarm := t.alarm, sources := t.sources, lines := t.lines, port := t.port } ∧
  messageQueues t = messageQueues s

theorem rulesMoved_refl (s : State) : RulesMoved s s := ⟨rfl, rfl⟩

theorem rulesMoved_trans {s t u : State} (h : RulesMoved s t) (h' : RulesMoved t u) : RulesMoved s u := by
  obtain ⟨hframe, hqueues⟩ := h
  obtain ⟨hframe', hqueues'⟩ := h'
  refine ⟨?_, hqueues'.trans hqueues⟩
  rw [hframe', hframe]

theorem rulesMoved_tables {s t : State} (h : RulesMoved s t) (x : Tables) : RulesMoved s (t.setTables x) := by
  obtain ⟨hframe, hqueues⟩ := h
  refine ⟨?_, hqueues⟩
  unfold State.setTables
  rw [hframe]

theorem quietRecord_moved (s : State) (r : RuleId) (x : RuleRecord) : RulesMoved s (s.quietRecord r x) := by
  refine ⟨?_, messageQueues_quietRecord s r x⟩
  have h := quietRecord_rules s r x
  generalize s.quietRecord r x = t at *
  rw [h]

/-- ALARM_RULES records leave the rules below the first as they are when nothing is due, put their own to QUIET, and touch
nothing but what rules hold, the notices and the tables (R121). -/
theorem writeRecords_alarmRules : ∀ (rs : List Record) (s : State) (first : Nat), (∀ r ∈ rs, r.table = .alarmRules) →
    first + rs.length ≤ 32 →
    (s.alarm.due = [] → ∀ q : RuleId, q.val < first → (s.writeRecords first rs).alarm.rules[q] = s.alarm.rules[q]) ∧
    (∀ q : RuleId, first ≤ q.val → q.val < first + rs.length →
      (s.writeRecords first rs).alarm.rules[q].state = .quiet ∧ (s.writeRecords first rs).alarm.rules[q].timer = 0 ∧
      (s.writeRecords first rs).alarm.rules[q].ack = false) ∧
    RulesMoved s (s.writeRecords first rs)
  | [], s, first, _, _ => ⟨fun _ _ _ => rfl, fun q h1 h2 => by rw [List.length_nil] at h2; omega, rulesMoved_refl s⟩
  | r :: rs, s, first, hname, hsize => by
    rw [List.length_cons] at hsize
    have hr := hname r List.mem_cons_self
    cases r with
    | alarmRule x =>
      obtain ⟨r₀, rfl⟩ : ∃ r₀ : RuleId, r₀.val = first := ⟨⟨first, by omega⟩, rfl⟩
      obtain ⟨hbelow, hquiet, hsame⟩ := writeRecords_alarmRules rs (s.writeEntry r₀.val (.alarmRule x)) (r₀.val + 1)
        (fun x hx => hname x (List.mem_cons_of_mem _ hx)) (by omega)
      have hentry := writeEntry_alarmRule s r₀ x
      have hdue : (s.writeEntry r₀.val (.alarmRule x)).alarm.due = [] := by
        rw [hentry]; exact quietRecord_due s r₀ _
      have hrule := quietRecord_rule s r₀ s.tables.ruleRecords[r₀]
      have hself : (s.writeEntry r₀.val (.alarmRule x)).alarm.rules[r₀] =
          (s.quietRecord r₀ s.tables.ruleRecords[r₀]).alarm.rules[r₀] := by rw [hentry]; rfl
      refine ⟨fun hs q hq => ?_, fun q h1 h2 => ?_, ?_⟩
      · rw [State.writeRecords, hbelow hdue q (by omega), hentry]
        exact quietRecord_other hs fun e => by rw [e] at hq; omega
      · rw [State.writeRecords]
        by_cases hq : q = r₀
        · subst hq
          rw [hbelow hdue q (by omega), hself]
          exact hrule
        · rw [List.length_cons] at h2
          exact hquiet q (by have : q.val ≠ r₀.val := fun e => hq (Fin.ext e); omega) (by omega)
      · have hfirst : RulesMoved s (s.writeEntry r₀.val (.alarmRule x)) := by
          rw [hentry]
          exact rulesMoved_tables (quietRecord_moved s r₀ _) _
        exact rulesMoved_trans hfirst hsame
    | _ => cases hr


/-- Records written from entry `first` of their table (R140, R168). -/
theorem writeRecords_written {s : State} {name : TableName} {rs : List Record} {first : Nat}
    (hwf : cellsWf 0 s.tables.filters = true) (hname : ∀ r ∈ rs, r.table = name)
    (hsize : first + rs.length ≤ tableSize name) : Safety.Written s (s.writeRecords first rs) name first rs := by
  have htables := writeRecords_tables rs s first
  obtain ⟨hactive, hmarker, hstate, hinstant, hpos⟩ := putEntries_sameTake rs s.tables first
  rw [← htables] at hactive hmarker hstate hinstant hpos
  have hread (n : TableName) (k : Nat) (hk : k < tableSize n) := writtenOf_putEntries rs s.tables first hwf hname hsize n k hk
  rw [← htables] at hread
  have hcv : name ≠ .linkConfig → (s.writeRecords first rs).cv = s.cv := fun hne => by
    by_cases halarm : name = .alarmRules
    · rw [(writeRecords_alarmRules rs s first (by rwa [← halarm]) (by rwa [halarm] at hsize)).2.2.1]
    · exact (writeRecords_frame rs s first fun r hr => by rw [hname r hr]; exact halarm).2 fun r hr => by
        rw [hname r hr]; exact hne
  refine ⟨hread, hactive, hmarker, hstate, hinstant, hpos, fun hne => ?_, hcv, fun l => ?_, fun halarm => ?_⟩
  · exact (writeRecords_frame rs s first fun r hr => by rw [hname r hr]; exact hne).1
  · by_cases hlink : name = .linkConfig
    · exact (writeRecords_linkConfig rs s first (by rwa [← hlink]) (by rwa [hlink] at hsize)).2 l
    · have hmode : (s.writeRecords first rs).modeOf l = s.modeOf l := by
        have hentry := hread .linkConfig l.val l.isLt
        rw [if_neg fun e => hlink e.symm] at hentry
        have hl : (Fin.ofNat 4 l.val : LinkId) = l := Fin.ext (Nat.mod_eq_of_lt l.isLt)
        unfold writtenOf entryOf at hentry
        injection hentry with hconfig
        simp only [hl] at hconfig
        unfold State.modeOf
        rw [hconfig]
      rw [if_pos hmode, hcv hlink]
  · obtain ⟨-, hquiet, hframe, hqueues⟩ :=
      writeRecords_alarmRules rs s first (by rwa [← halarm]) (by rwa [halarm] at hsize)
    rw [halarm] at hsize
    have hsize : first + rs.length ≤ 32 := hsize
    injection hqueues with hcommands hrest
    injection hrest with hreplies hrelay
    refine ⟨fun k h1 h2 => ?_, hcommands, hreplies, hrelay, hframe⟩
    have hk : (Fin.ofNat 32 k : RuleId).val = k := Nat.mod_eq_of_lt (by omega)
    exact hquiet (Fin.ofNat 32 k) (by omega) (by omega)

/-! ### Cutting a payload into records (R166) -/

/-- Pieces that each give their own size by their first byte, laid one after another, are cut into themselves. -/
theorem cutRecords_laid {size : Byte → Nat} : ∀ (ps : List (List Byte)) (fuel position : Nat),
    (∀ p ∈ ps, ∃ b rest, p = b :: rest ∧ size b = rest.length + 1) → ps.flatten.length ≤ fuel →
    cutRecords size fuel position ps.flatten = .records ps
  | [], fuel, position, _, _ => by cases fuel <;> rfl
  | p :: ps, fuel, position, hsound, hfuel => by
    obtain ⟨b, rest, rfl, hsize⟩ := hsound p List.mem_cons_self
    rw [List.flatten_cons, List.length_append, List.length_cons] at hfuel
    obtain ⟨k, rfl⟩ : ∃ k, fuel = k + 1 := ⟨fuel - 1, by omega⟩
    have hdrop : (b :: (rest ++ ps.flatten)).drop (size b) = ps.flatten := by
      rw [hsize, List.drop_succ_cons]
      exact List.drop_left' rfl
    have htake : (b :: (rest ++ ps.flatten)).take (size b) = b :: rest := by
      rw [hsize, List.take_succ_cons, List.take_left' rfl]
    rw [List.flatten_cons, List.cons_append, cutRecords, if_neg (by omega), if_neg (by rw [hsize]; simp), hdrop, htake,
      cutRecords_laid ps k (position + 1) (fun q hq => hsound q (List.mem_cons_of_mem _ hq)) (by omega)]

theorem programmeBytes_length (p : ProgRecord) : (programmeBytes p).length = 23 + 2 * p.members.length := by
  have hmembers : (p.members.flatMap fun m => beBytes 1 m.channel.val ++ beBytes 1 m.weight).length = 2 * p.members.length := by
    induction p.members with
    | nil => rfl
    | cons m ms ih => simp [ih]; omega
  simp only [programmeBytes, beSigned, List.length_append, beBytes_length, hmembers]

theorem programmeBytes_cons (p : ProgRecord) :
    programmeBytes p = BitVec.ofNat 8 (128 + p.members.length * 8) :: (programmeBytes p).tail := by
  simp only [programmeBytes, beBytes_one, List.append_assoc, List.cons_append, List.nil_append, List.tail_cons]

/-- The first byte of a valid record gives its size (R166). -/
theorem recordBytes_head {r : Record} (h : r.valid = true) :
    ∃ b rest, recordBytes r = b :: rest ∧ sizeFrom r.table b = rest.length + 1 := by
  have hfixed (hne : r.table ≠ .programmes) (hpos : 0 < recordSize r.table) (hsize : ∀ b, sizeFrom r.table b = recordSize r.table) :
      ∃ b rest, recordBytes r = b :: rest ∧ sizeFrom r.table b = rest.length + 1 := by
    have hlen := recordBytes_length hne
    cases hb : recordBytes r with
    | nil => rw [hb, List.length_nil] at hlen; omega
    | cons b rest => exact ⟨b, rest, rfl, by rw [hsize, ← hlen, hb, List.length_cons]⟩
  cases r with
  | programme p =>
    cases p with
    | none => exact ⟨0#8, [], rfl, rfl⟩
    | some p =>
      obtain ⟨hmin, hmax⟩ : 1 ≤ p.members.length ∧ p.members.length ≤ 8 := by
        simp only [Record.valid, programmeValid, Bool.and_eq_true, decide_eq_true_eq] at h
        omega
      have hbyte : (BitVec.ofNat 8 (128 + p.members.length * 8)).toNat = 128 + p.members.length * 8 := by
        rw [BitVec.toNat_ofNat]; exact Nat.mod_eq_of_lt (by omega)
      have hcount : memberCount (BitVec.ofNat 8 (128 + p.members.length * 8)) = p.members.length := by
        unfold memberCount
        rw [hbyte]
        omega
      refine ⟨_, (programmeBytes p).tail, programmeBytes_cons p, ?_⟩
      rw [List.length_tail, programmeBytes_length]
      simp only [sizeFrom, Record.table, hbyte, hcount]
      rw [if_neg (by omega), if_neg (by omega)]
      omega
  | slotMap e => exact hfixed nofun (Nat.succ_pos _) fun _ => rfl
  | outputMap o => exact hfixed nofun (Nat.succ_pos _) fun _ => rfl
  | region g => exact hfixed nofun (Nat.succ_pos _) fun _ => rfl
  | linkConfig c => exact hfixed nofun (Nat.succ_pos _) fun _ => rfl
  | filter v => exact hfixed nofun (Nat.succ_pos _) fun _ => rfl
  | select e => exact hfixed nofun (Nat.succ_pos _) fun _ => rfl
  | weighting v => exact hfixed nofun (Nat.succ_pos _) fun _ => rfl
  | alarmRule x => exact hfixed nofun (Nat.succ_pos _) fun _ => rfl

/-- Valid records of a table, laid one after another, are cut into themselves and read back (R166, R168). -/
theorem cutRecords_recordBytes {name : TableName} {rs : List Record} (hrs : ∀ r ∈ rs, r.table = name ∧ r.valid = true) :
    cutRecords (sizeFrom name) (rs.flatMap recordBytes).length 0 (rs.flatMap recordBytes) = .records (rs.map recordBytes) := by
  have hflat : rs.flatMap recordBytes = (rs.map recordBytes).flatten := List.flatMap_def
  rw [hflat]
  refine cutRecords_laid _ _ 0 (fun p hp => ?_) le_rfl
  obtain ⟨r, hr, rfl⟩ := List.mem_map.1 hp
  obtain ⟨hname, hvalid⟩ := hrs r hr
  rw [← hname]
  exact recordBytes_head hvalid

theorem cutWrite_recordBytes {name : TableName} {rs : List Record} (hne : rs ≠ [])
    (hrs : ∀ r ∈ rs, r.table = name ∧ r.valid = true) :
    cutWrite name (rs.flatMap recordBytes) = .records (rs.map recordBytes) := by
  unfold cutWrite
  rw [cutRecords_recordBytes hrs]
  cases rs with
  | nil => exact absurd rfl hne
  | cons r rs => rfl

theorem cutFill_recordBytes {r : Record} (h : r.valid = true) : cutFill r.table (recordBytes r) = .records [recordBytes r] := by
  obtain ⟨b, rest, hbytes, hsize⟩ := recordBytes_head h
  unfold cutFill
  rw [hbytes]
  simp only
  rw [hsize, if_neg (Nat.succ_ne_zero _), if_pos (List.length_cons)]

theorem filterMap_readRecord {name : TableName} {rs : List Record} (hrs : ∀ r ∈ rs, r.table = name ∧ r.valid = true) :
    (rs.map recordBytes).filterMap (readRecord name) = rs := by
  rw [List.filterMap_map]
  refine (List.filterMap_congr fun r hr => ?_).trans List.filterMap_some
  obtain ⟨hname, hvalid⟩ := hrs r hr
  rw [Function.comp, ← hname, readRecord_recordBytes hvalid]

/-! ### The checks of a write (R50, R51, R168) -/

theorem firstFaulty_recordBytes {name : TableName} : ∀ {rs : List Record}, (∀ r ∈ rs, r.table = name ∧ r.valid = true) →
    firstFaulty name (rs.map recordBytes) = none
  | [], _ => rfl
  | r :: rs, hrs => by
    obtain ⟨hname, hvalid⟩ := hrs r List.mem_cons_self
    have hread := readRecord_recordBytes hvalid
    rw [hname] at hread
    rw [List.map_cons, firstFaulty, hread]
    simp only
    rw [firstFaulty_recordBytes fun x hx => hrs x (List.mem_cons_of_mem r hx)]
    rfl

/-- The enabled bounds of SET_SELECT would rise in the table as it would stand (R51). -/
def BoundsRise (t : Tables) (name : TableName) (first : Nat) (rs : List Record) : Prop :=
  ∀ (i j : Fin 4) (x y : SelectEntry), i < j → Safety.standing t name first rs i.val = .select (some x) →
    Safety.standing t name first rs j.val = .select (some y) → x.bound < y.bound

/-- What a write's bytes make of an entry of SET_SELECT is the entry as it would stand (R51). -/
theorem selectAfter_recordBytes {t : Tables} {first : Nat} {rs : List Record}
    (hrs : ∀ r ∈ rs, r.table = .setSelect ∧ r.valid = true) (i : Fin 4) :
    ∃ e, selectAfter t first (rs.map recordBytes) i = some e ∧ Safety.standing t .setSelect first rs i.val = .select e := by
  have hi : (Fin.ofNat 4 i.val : Fin 4) = i := Fin.ext (Nat.mod_eq_of_lt i.isLt)
  have hold : entryOf t (standbyBank t) .setSelect i.val = .select t.setSelect[i] := by
    unfold entryOf
    simp only [hi]
  unfold selectAfter Safety.standing
  by_cases hlow : i.val < first
  · exact ⟨_, if_pos hlow, (if_neg (Nat.not_le.2 hlow)).trans hold⟩
  · rw [if_neg hlow, if_pos (Nat.not_lt.1 hlow), List.getElem?_map, List.getD_eq_getElem?_getD]
    cases hget : rs[i.val - first]? with
    | none => exact ⟨_, rfl, hold⟩
    | some r =>
      obtain ⟨hname, hvalid⟩ := hrs r (List.mem_of_getElem? hget)
      cases r with
      | select e => exact ⟨e, readSelect_recordBytes hvalid, rfl⟩
      | _ => cases hname

theorem faultyEntry_recordBytes {t : Tables} {name : TableName} {first : Nat} {rs : List Record}
    (hrs : ∀ r ∈ rs, r.table = name ∧ r.valid = true) (hrise : name = .setSelect → BoundsRise t name first rs) :
    faultyEntry t name first (rs.map recordBytes) = none := by
  by_cases hselect : name = .setSelect
  · subst hselect
    choose f hread hstand using fun i => selectAfter_recordBytes (t := t) (first := first) hrs i
    unfold faultyEntry
    simp only [hread]
    refine (selectOrder_iff f).2 fun i j x y hij hx hy => hrise rfl i j x y hij ?_ ?_
    · rw [hstand, hx]
    · rw [hstand, hy]
  · have hfaulty := firstFaulty_recordBytes hrs
    unfold faultyEntry
    cases name with
    | setSelect => exact absurd rfl hselect
    | _ => simp only [hfaulty]; rfl

theorem setInUse_iff (s : State) (entry : Nat) : s.setInUse entry = true ↔ Safety.InUse s entry := by
  unfold State.setInUse Safety.InUse Safety.Runs presentedFilter
  rw [List.any_eq_true]
  constructor
  · rintro ⟨l, -, h⟩
    by_cases hp : s.modeOf l ≠ .direct ∧ (s.cv[l].state = .locked ∨ s.cv[l].state = .splicing)
    · rw [if_pos hp] at h
      cases hf : s.cv[l].filter with
      | none => rw [hf] at h; exact absurd h Bool.false_ne_true
      | some set =>
        rw [hf] at h
        exact ⟨l, set, hp.2, hp.1, hf, eq_of_beq h⟩
    · rw [if_neg hp] at h
      exact absurd h Bool.false_ne_true
  · rintro ⟨l, set, hruns, hmode, hf, hset⟩
    refine ⟨l, List.mem_finRange l, ?_⟩
    rw [if_pos ⟨hmode, hruns⟩, hf]
    exact beq_iff_eq.2 hset

theorem writeRefusal_eq (s : State) (name : TableName) (first n : Nat) :
    (banked name = true → s.tables.bankState ≠ .editing → s.writeRefusal name first n = some .busy) ∧
    (name = .filterSets → (∃ k, k < n ∧ Safety.InUse s (first + k)) → s.writeRefusal name first n = some .inUse) ∧
    ((banked name = true → s.tables.bankState = .editing) →
      (name = .filterSets → ∀ k, k < n → ¬ Safety.InUse s (first + k)) → s.writeRefusal name first n = none) := by
  have hany : ((List.range n).any fun k => s.setInUse (first + k)) = true ↔ ∃ k, k < n ∧ Safety.InUse s (first + k) := by
    simp [List.any_eq_true, setInUse_iff]
  unfold State.writeRefusal
  refine ⟨fun hb hs => ?_, fun hname huse => ?_, fun hb huse => ?_⟩
  · exact if_pos (by rw [hb, Bool.true_and]; exact bne_iff_ne.2 hs)
  · subst hname
    rw [if_neg (by simp [banked]), if_pos (by rw [hany.2 huse]; rfl)]
  · rw [if_neg, if_neg]
    · rw [Bool.and_eq_true, beq_iff_eq]
      rintro ⟨hname, h⟩
      obtain ⟨k, hk, hin⟩ := hany.1 h
      exact huse hname k hk hin
    · rw [Bool.and_eq_true, bne_iff_ne]
      exact fun h => h.2 (hb h.1)

/-! ### WRITE ENTRIES and FILL ENTRIES (R166, R168, R169) -/

/-- A write of valid records that passes the index check: the outcome of its last checks (R168). -/
theorem putRecords_eq {s : State} {name : TableName} {rs : List Record} (code first : Nat)
    (hrs : ∀ r ∈ rs, r.table = name ∧ r.valid = true) :
    s.putRecords code name first none (rs.map recordBytes) =
      match s.writeRefusal name first rs.length with
      | some st => s.refuse st
      | none => (s.writeRecords first rs, writeReply code first rs.length) := by
  unfold State.putRecords
  simp only [List.length_map, filterMap_readRecord hrs] <;> rfl

theorem writeEntries_eq {s : State} {name : TableName} {rs : List Record} {code i1 i0 : Byte}
    (hcode : tableOf code.toNat = some name) (hne : rs ≠ []) (hrs : ∀ r ∈ rs, r.table = name ∧ r.valid = true)
    (hsize : i1.toNat * 256 + i0.toNat + rs.length ≤ tableSize name) :
    s.writeEntries (code :: i1 :: i0 :: rs.flatMap recordBytes) =
      s.putRecords code.toNat name (i1.toNat * 256 + i0.toNat)
        (faultyEntry s.tables name (i1.toNat * 256 + i0.toNat) (rs.map recordBytes)) (rs.map recordBytes) := by
  have hbyte : byteAt (code :: i1 :: i0 :: rs.flatMap recordBytes) 0 = code.toNat := rfl
  have hfield : fieldAt (code :: i1 :: i0 :: rs.flatMap recordBytes) 1 2 = i1.toNat * 256 + i0.toNat := by
    simp [fieldAt, fromBytes]
  have hdrop : (code :: i1 :: i0 :: rs.flatMap recordBytes).drop 3 = rs.flatMap recordBytes := rfl
  unfold State.writeEntries
  rw [if_neg (by simp), hbyte, hcode]
  simp only [hfield, hdrop, cutWrite_recordBytes hne hrs]
  rw [if_neg (by rw [List.length_map]; omega)]

theorem fillEntries_eq {s : State} {name : TableName} {r : Record} {code i1 i0 r1 r0 : Byte}
    (hcode : tableOf code.toNat = some name) (hname : r.table = name) (hvalid : r.valid = true)
    (hsize : i1.toNat * 256 + i0.toNat + (r1.toNat * 256 + r0.toNat + 1) ≤ tableSize name) :
    s.fillEntries (code :: i1 :: i0 :: r1 :: r0 :: recordBytes r) =
      s.putRecords code.toNat name (i1.toNat * 256 + i0.toNat)
        (faultyFill s.tables name (i1.toNat * 256 + i0.toNat) (r1.toNat * 256 + r0.toNat + 1) (recordBytes r))
        ((List.replicate (r1.toNat * 256 + r0.toNat + 1) r).map recordBytes) := by
  have hbyte : byteAt (code :: i1 :: i0 :: r1 :: r0 :: recordBytes r) 0 = code.toNat := rfl
  have hfirst : fieldAt (code :: i1 :: i0 :: r1 :: r0 :: recordBytes r) 1 2 = i1.toNat * 256 + i0.toNat := by
    simp [fieldAt, fromBytes]
  have hrepeat : fieldAt (code :: i1 :: i0 :: r1 :: r0 :: recordBytes r) 3 2 = r1.toNat * 256 + r0.toNat := by
    simp [fieldAt, fromBytes]
  have hdrop : (code :: i1 :: i0 :: r1 :: r0 :: recordBytes r).drop 5 = recordBytes r := rfl
  have hcut : cutFill name (recordBytes r) = .records [recordBytes r] := by rw [← hname]; exact cutFill_recordBytes hvalid
  unfold State.fillEntries
  rw [if_neg (by simp), hbyte, hcode]
  simp only [hfirst, hrepeat, hdrop, hcut, List.headD_cons, List.map_replicate]
  rw [if_neg (by omega)]

/-- A fill's faulty entry is that of its records, but for an enabled SET_SELECT record over two entries or more (R169). -/
theorem faultyFill_eq {t : Tables} {r : Record} (first n : Nat) (hvalid : r.valid = true) :
    (2 ≤ n → (∃ x, r = .select (some x)) → faultyFill t r.table first n (recordBytes r) = some (first + 1)) ∧
    ((2 ≤ n → ∀ x, r ≠ .select (some x)) →
      faultyFill t r.table first n (recordBytes r) = faultyEntry t r.table first ((List.replicate n r).map recordBytes)) := by
  rw [List.map_replicate]
  refine ⟨fun hn ⟨x, hx⟩ => ?_, fun h => ?_⟩
  · subst hx
    have hread := readSelect_recordBytes hvalid
    unfold faultyFill
    simp only [Record.table, hread]
    exact if_pos hn
  · cases r with
    | select e =>
      have hread := readSelect_recordBytes hvalid
      unfold faultyFill
      simp only [Record.table, hread]
      cases e with
      | none => rfl
      | some x => exact if_neg fun hn => h hn x rfl
    | _ => rfl

theorem standing_replicate (t : Tables) (name : TableName) {first n k : Nat} (r : Record) (h1 : first ≤ k) (h2 : k < first + n) :
    Safety.standing t name first (List.replicate n r) k = r := by
  unfold Safety.standing
  rw [if_pos h1, List.getD_eq_getElem?_getD, List.getElem?_replicate, if_pos (by omega), Option.getD_some]

/-- A write that is accepted repeats no enabled SET_SELECT record (R51). -/
theorem accepts_replicate {s : State} {r : Record} {first n : Nat}
    (h : Safety.Accepts s r.table first (List.replicate n r)) (hn : 2 ≤ n) (x : SelectEntry) : r ≠ .select (some x) := by
  intro hr
  obtain ⟨-, hsize, -, -, hrise⟩ := h
  rw [List.length_replicate] at hsize
  subst hr
  have hsize : first + n ≤ 4 := hsize
  have hless := hrise rfl ⟨first, by omega⟩ ⟨first + 1, by omega⟩ x x (Nat.lt_succ_self first)
    (standing_replicate s.tables _ _ le_rfl (show first < first + n by omega))
    (standing_replicate s.tables _ _ (Nat.le_succ first) (show first + 1 < first + n by omega))
  exact absurd hless (Nat.lt_irrefl _)

theorem writeReply_eq (code i1 i0 : Byte) (n : Nat) :
    writeReply code.toNat (i1.toNat * 256 + i0.toNat) n = [0#8, code, i1, i0] ++ beBytes 2 n := by
  have hfirst : beBytes 2 (i1.toNat * 256 + i0.toNat) = [i1, i0] := by
    have h := beBytes_fromBytes [i1, i0]
    simpa [fromBytes] using h
  unfold writeReply
  rw [hfirst, beBytes_one, BitVec.ofNat_toNat, BitVec.setWidth_eq]
  rfl

/-- Settles O36: records written and filled, and the refusals of a write (R50, R51, R168, R169). -/
theorem writeAndFillEntries : Obligations.WriteAndFillEntries := by
  refine ⟨?write, ?fill⟩
  case write =>
    intro s m rest code i1 i0 name rs first h hm hcode hne hrs
    have hrun (hsize : first + rs.length ≤ tableSize name) (hrise : name = .setSelect → BoundsRise s.tables name first rs) :
        (s.takeCommand rest).writeEntries m.payload =
          match (s.takeCommand rest).writeRefusal name first rs.length with
          | some st => (s.takeCommand rest).refuse st
          | none => ((s.takeCommand rest).writeRecords first rs, writeReply code.toNat first rs.length) := by
      rw [hm, writeEntries_eq hcode hne hrs hsize, State.takeCommand_tables, faultyEntry_recordBytes hrs hrise,
        putRecords_eq _ _ hrs] <;> rfl
    obtain ⟨hbusy, hinuse, hnone⟩ := writeRefusal_eq (s.takeCommand rest) name first rs.length
    refine ⟨fun hwf ⟨_, hsize, hbank, huse, hrise⟩ => ?_, fun hsize hname huse => ?_, fun hsize hb hstate => ?_⟩
    · have hrun := hrun hsize hrise
      rw [hnone hbank huse] at hrun
      rw [show writeReply code.toNat first rs.length = _ from writeReply_eq code i1 i0 rs.length] at hrun
      exact ⟨_, congrArg Host.Outcome.next (exec_of_ready h rfl hrun),
        writeRecords_written hwf.2 (fun r hr => (hrs r hr).1) hsize⟩
    · have hrun := hrun hsize fun e => by rw [hname] at e; cases e
      rw [hinuse hname huse] at hrun
      exact congrArg Host.Outcome.next (exec_of_ready h rfl hrun)
    · have hrun := hrun hsize fun e => by rw [e] at hb; cases hb
      rw [hbusy hb hstate] at hrun
      exact congrArg Host.Outcome.next (exec_of_ready h rfl hrun)
  case fill =>
    intro s m rest code i1 i0 r1 r0 name r first n h hm hcode hname hvalid
    subst hname
    have hrs : ∀ x ∈ List.replicate n r, x.table = r.table ∧ x.valid = true := fun x hx => by
      rw [List.eq_of_mem_replicate hx]; exact ⟨rfl, hvalid⟩
    obtain ⟨htwice, honce⟩ := faultyFill_eq (t := s.tables) first n hvalid
    have hrun (hsize : first + n ≤ tableSize r.table) (hsel : 2 ≤ n → ∀ x, r ≠ .select (some x)) (hrise : r.table = .setSelect → BoundsRise s.tables r.table first (List.replicate n r)) :
        (s.takeCommand rest).fillEntries m.payload =
          match (s.takeCommand rest).writeRefusal r.table first n with
          | some st => (s.takeCommand rest).refuse st
          | none => ((s.takeCommand rest).writeRecords first (List.replicate n r), writeReply code.toNat first n) := by
      have hput := putRecords_eq (s := s.takeCommand rest) code.toNat first hrs
      rw [List.length_replicate] at hput
      rw [hm, fillEntries_eq hcode rfl hvalid hsize, State.takeCommand_tables, honce hsel, faultyEntry_recordBytes hrs hrise,
        hput] <;> rfl
    obtain ⟨hbusy, hinuse, hnone⟩ := writeRefusal_eq (s.takeCommand rest) r.table first n
    refine ⟨fun hwf haccepts => ?_, fun hsize hname huse => ?_, fun hsize hb hstate => ?_,
      fun hsize hn hx => ?_⟩
    · have hsel := accepts_replicate haccepts
      obtain ⟨-, hsize, hbank, huse, hrise⟩ := haccepts
      rw [List.length_replicate] at hsize huse
      have hrun := hrun hsize hsel hrise
      rw [hnone hbank huse, show writeReply code.toNat first n = _ from writeReply_eq code i1 i0 n] at hrun
      exact ⟨_, congrArg Host.Outcome.next (exec_of_ready h rfl hrun),
        writeRecords_written hwf.2 (fun x hx => (hrs x hx).1) (by rw [List.length_replicate]; exact hsize)⟩
    · have hrun := hrun hsize (fun _ x e => by rw [e] at hname; cases hname) fun e => by rw [hname] at e; cases e
      rw [hinuse hname huse] at hrun
      exact congrArg Host.Outcome.next (exec_of_ready h rfl hrun)
    · have hrun := hrun hsize (fun _ x e => by rw [e] at hb; cases hb) fun e => by rw [e] at hb; cases hb
      rw [hbusy hb hstate] at hrun
      exact congrArg Host.Outcome.next (exec_of_ready h rfl hrun)
    · have hfirst : first + 1 < 65536 := by
        obtain ⟨x, rfl⟩ := hx
        have : first + n ≤ 4 := hsize
        omega
      have hrun : (s.takeCommand rest).fillEntries m.payload = (s.takeCommand rest, [4#8] ++ beBytes 2 (first + 1)) := by
        rw [hm, fillEntries_eq hcode rfl hvalid hsize, State.takeCommand_tables, htwice hn hx]
        change (s.takeCommand rest, statusByte .badValue :: beBytes 2 ((first + 1) % 65536)) = _
        rw [Nat.mod_eq_of_lt hfirst]
        rfl
      exact congrArg Host.Outcome.next (exec_of_ready h rfl hrun)

end Sys2Proof.Machine
end

section
/-! PROOF. RESET DOMAINS: O45. -/

namespace Sys2Proof.Machine

/-! ### The LINKS part (R20, R28, R56) -/

theorem takeReport_leftFramed_frame (p : Port) : p.takeReport .leftFramed =
    { p with assembler := (p.takeReport .leftFramed).assembler, errors := (p.takeReport .leftFramed).errors } := by
  unfold Port.takeReport Port.assemblerTimeout
  simp only
  split <;> split <;> rfl

theorem takeReport_leftFramed_notices (p : Port) (ns : List Notice) :
    { p with notices := ns }.takeReport .leftFramed = { p.takeReport .leftFramed with notices := ns } := by
  have hdue : timeoutDue { p with notices := ns } = timeoutDue p := rfl
  unfold Port.takeReport Port.assemblerTimeout
  simp only [hdue]
  by_cases htime : timeoutDue p = true
  · rw [if_pos htime, if_pos htime]
    rfl
  · rw [if_neg htime, if_neg htime]
    simp only
    split <;> rfl

/-- One link reset: its receiver, its converter and, when the link was FRAMED, the report of its loss. -/
theorem resetLink_fields (s : State) (l : LinkId) :
    (s.resetLink l).rx = s.rx.set l.val (resetLinkReceiver s.rx[l]) ∧
    (s.resetLink l).cv = s.cv.set l.val (resetLinkConv s.cv[l]) ∧
    (s.resetLink l).port = (if l = s.port.mlk ∧ s.rx[l].state = .framed then s.port.takeReport .leftFramed else s.port) ∧
    s.resetLink l = { s with rx := (s.resetLink l).rx, cv := (s.resetLink l).cv, port := (s.resetLink l).port } := by
  unfold State.resetLink
  simp only
  by_cases hframed : s.rx[l].state = .framed
  · rw [if_pos hframed]
    refine ⟨report_rx _ _ _, report_cv _ _ _, ?_, ?_⟩
    · rw [report_port]
      by_cases hl : l = s.port.mlk
      · exact (if_pos hl).trans (if_pos ⟨hl, hframed⟩).symm
      · exact (if_neg hl).trans (if_neg fun h => hl h.1).symm
    · rw [report_frame]
      rfl
  · rw [if_neg hframed, if_neg fun h => hframed h.2]
    exact ⟨rfl, rfl, rfl, rfl⟩

/-- What the link resets can have changed. -/
def LinksMoved (s t : State) : Prop :=
  t = { s with rx := t.rx, cv := t.cv, port := t.port } ∧
  t.port = { s.port with assembler := t.port.assembler, errors := t.port.errors }

theorem resetLink_moved {s t : State} (l : LinkId) (h : LinksMoved s t) : LinksMoved s (t.resetLink l) := by
  obtain ⟨hframe, hport⟩ := h
  obtain ⟨-, -, hport', hframe'⟩ := resetLink_fields t l
  refine ⟨?_, ?_⟩
  · rw [hframe', hframe]
  · rw [hport']
    split
    · rw [takeReport_leftFramed_frame, hport]
    · exact hport

/-- What the turn of a link shows: its receiver, its converter, and the port at the turn of the management link. -/
def linkView (t : State) (l : LinkId) : Receiver × Conv × Option Port :=
  (t.rx[l], t.cv[l], if l = t.port.mlk then some t.port else none)

theorem resetLink_mlk (t : State) (l : LinkId) : (t.resetLink l).port.mlk = t.port.mlk := by
  rw [(resetLink_fields t l).2.2.1]
  split
  · rw [takeReport_leftFramed_frame]
  · rfl

theorem linkView_resetLink_ne (t : State) {i j : LinkId} (hne : j ≠ i) : linkView (t.resetLink i) j = linkView t j := by
  obtain ⟨hrx, hcv, hport, -⟩ := resetLink_fields t i
  have hv : i.val ≠ j.val := fun e => hne (Fin.ext e.symm)
  have hports : (if j = t.port.mlk then some (t.resetLink i).port else none) = if j = t.port.mlk then some t.port else none := by
    by_cases hj : j = t.port.mlk
    · rw [if_pos hj, if_pos hj, hport, if_neg fun h => hne (hj.trans h.1.symm)]
    · rw [if_neg hj, if_neg hj]
  unfold linkView
  rw [resetLink_mlk, hports, hrx, hcv]
  exact congrArg₂ Prod.mk (Vector.getElem_set_ne _ _ hv) (congrArg₂ Prod.mk (Vector.getElem_set_ne _ _ hv) rfl)

theorem resetLinks_items (s : State) :
    (∀ l : LinkId, (forLinks State.resetLink s).rx[l] = resetLinkReceiver s.rx[l] ∧
      (forLinks State.resetLink s).cv[l] = resetLinkConv s.cv[l]) ∧
    (forLinks State.resetLink s).port =
      (if s.rx[s.port.mlk].state = .framed then s.port.takeReport .leftFramed else s.port) ∧
    LinksMoved s (forLinks State.resetLink s) := by
  have hmoved := forLinks_keeps (P := LinksMoved s) (f := State.resetLink) (fun t l h => resetLink_moved l h)
    (s := s) ⟨rfl, rfl⟩
  have hmlk : (forLinks State.resetLink s).port.mlk = s.port.mlk := by rw [hmoved.2]
  have hitem (l : LinkId) : ∃ t : State, t.port.mlk = s.port.mlk ∧ linkView t l = linkView s l ∧
      linkView (forLinks State.resetLink s) l = linkView (t.resetLink l) l := by
    obtain ⟨t, ht, hview, hfinal⟩ := forLinks_item (view := linkView) (P := LinksMoved s) (f := State.resetLink)
      (fun t _ _ h => linkView_resetLink_ne t h) (fun t l h => resetLink_moved l h) (s := s) ⟨rfl, rfl⟩ l
    exact ⟨t, by rw [ht.2], hview, hfinal⟩
  refine ⟨fun l => ?_, ?_, hmoved⟩
  · obtain ⟨t, -, hview, hfinal⟩ := hitem l
    obtain ⟨hrx, hcv, -, -⟩ := resetLink_fields t l
    simp only [linkView, Prod.mk.injEq] at hview hfinal
    obtain ⟨hrx0, hcv0, -⟩ := hview
    obtain ⟨hrx1, hcv1, -⟩ := hfinal
    rw [hrx1, hcv1, hrx, hcv, ← hrx0, ← hcv0]
    exact ⟨Vector.getElem_set_self _, Vector.getElem_set_self _⟩
  · obtain ⟨t, hmlk', hview, hfinal⟩ := hitem s.port.mlk
    obtain ⟨-, -, hport, -⟩ := resetLink_fields t s.port.mlk
    simp only [linkView, Prod.mk.injEq] at hview hfinal
    obtain ⟨hrx0, -, hport0⟩ := hview
    obtain ⟨-, -, hport1⟩ := hfinal
    rw [if_pos hmlk'.symm, if_pos trivial, Option.some.injEq] at hport0
    rw [if_pos hmlk.symm, if_pos (by rw [resetLink_mlk, hmlk']), Option.some.injEq] at hport1
    rw [hport1, hport, hport0, hrx0]
    by_cases hframed : s.rx[s.port.mlk].state = .framed
    · rw [if_pos ⟨rfl, hframed⟩, if_pos hframed]
    · rw [if_neg fun h => hframed h.2, if_neg hframed]

/-! ### The effect of the LINKS and ALARMS parts -/

/-- What the LINKS part leaves of the assembler and the error counts (R20, R154). -/
def linkLossPort (s : State) (links : Bool) : Port :=
  if links = true ∧ s.rx[s.port.mlk].state = .framed then s.port.takeReport .leftFramed else s.port

/-- The loss of the management link is the same whatever notices wait. -/
theorem linkLossPort_notices {s u : State} {ns : List Notice} (hport : u.port = { s.port with notices := ns })
    (hrx : u.rx = s.rx) (links : Bool) : linkLossPort u links = { linkLossPort s links with notices := ns } := by
  have hmlk : u.port.mlk = s.port.mlk := by rw [hport]
  have hcond : (links = true ∧ u.rx[u.port.mlk].state = .framed) ↔ (links = true ∧ s.rx[s.port.mlk].state = .framed) := by
    simp only [hmlk, hrx]
  unfold linkLossPort
  by_cases h : links = true ∧ s.rx[s.port.mlk].state = .framed
  · rw [if_pos (hcond.2 h), if_pos h, hport, takeReport_leftFramed_notices]
  · rw [if_neg fun h' => h (hcond.1 h'), if_neg h, hport]

/-- A rule after the LINKS and ALARMS parts that the mask names. -/
def ruleReset (links alarms : Bool) (x : Rule) : Rule :=
  if alarms then quietRule else if links then { x with switched := 0#32 } else x

/-- Whether a rule's switched set holds the channel. -/
def Switched (s : State) (c : ChannelId) : Prop := ∃ r : RuleId, hasMember s.alarm.rules[r].switched c = true

/-- What the LINKS and ALARMS parts, as far as they are taken, leave of everything but the lines. -/
def PartsTaken (s t : State) (links alarms : Bool) : Prop :=
  (∀ l : LinkId, t.rx[l] = (if links then resetLinkReceiver s.rx[l] else s.rx[l]) ∧
    t.cv[l] = if links then resetLinkConv s.cv[l] else s.cv[l]) ∧
  (∀ p : ProgId, t.gain[p] = { s.gain[p] with reasons := t.gain[p].reasons } ∧
    ∀ r : RuleId, hasMember t.gain[p].reasons r = true ↔ hasMember s.gain[p].reasons r = true ∧
      ¬ (alarms = true ∧ hasMember s.alarm.rules[r].muted p = true ∧ s.record p ≠ none)) ∧
  (∀ c : ChannelId, (links = true → t.sources[c] = .primary) ∧
    (links = false → alarms = true → Switched s c → t.sources[c] = Safety.revertedSource s c) ∧
    (links = false → ¬ (alarms = true ∧ Switched s c) → t.sources[c] = s.sources[c])) ∧
  (∀ r : RuleId, t.alarm.rules[r] = ruleReset links alarms s.alarm.rules[r]) ∧
  t.alarm.due = (if alarms then [] else s.alarm.due) ∧
  t.port = { linkLossPort s links with notices := if alarms then [] else s.port.notices } ∧
  t = { s with rx := t.rx, cv := t.cv, gain := t.gain, sources := t.sources, alarm := t.alarm, lines := t.lines,
               port := t.port }

theorem partsTaken_refl (s : State) : PartsTaken s s false false := by
  refine ⟨fun _ => ⟨rfl, rfl⟩, fun p => ⟨rfl, fun r => by simp⟩, fun c => ⟨nofun, nofun, fun _ _ => rfl⟩, fun _ => rfl, rfl,
    ?_, rfl⟩
  simp [linkLossPort]

/-- The lines do not enter the effect. -/
theorem partsTaken_lines {s t : State} {links alarms : Bool} (h : PartsTaken s t links alarms) (x : Vector Line 32) :
    PartsTaken s { t with lines := x } links alarms := by
  obtain ⟨h1, h2, h3, h4, h5, h6, h7⟩ := h
  refine ⟨h1, h2, h3, h4, h5, h6, ?_⟩
  rw [h7]

/-- A release leaves a channel no further from its primary: it stands, returns to PRIMARY, or waits (R25, R28). -/
def Toward (x y : SourceState) : Prop := y = x ∨ y = .primary ∨ (x = .backup ∧ y = .pending)

theorem toward_reverted (s : State) (c : ChannelId) : Toward s.sources[c] (Safety.revertedSource s c) := by
  unfold Safety.revertedSource Toward
  split
  · next h =>
    cases s.active.slotMap[c].primary with
    | none => exact .inr (.inr ⟨h.1, rfl⟩)
    | some src =>
      simp only
      split
      · exact .inr (.inl rfl)
      · exact .inr (.inr ⟨h.1, rfl⟩)
  · exact .inl rfl

theorem partsTaken_toward {s t : State} {links alarms : Bool} (h : PartsTaken s t links alarms) (c : ChannelId) :
    Toward s.sources[c] t.sources[c] := by
  obtain ⟨hlinks, halarms, hstay⟩ := h.2.2.1 c
  by_cases hl : links = true
  · exact .inr (.inl (hlinks hl))
  · have hl := Bool.eq_false_iff.2 hl
    by_cases ha : alarms = true ∧ Switched s c
    · rw [halarms hl ha.1 ha.2]
      exact toward_reverted s c
    · exact .inl (hstay hl ha)

/-- A channel's selected source changes once on its way to its primary (R23). -/
theorem toward_once {x y z : SourceState} (e : SlotEntry) (h : Toward x y) (h' : Toward y z) :
    selectedSource e y = selectedSource e x ∨ selectedSource e z = selectedSource e y := by
  unfold Toward at *
  rcases h with rfl | rfl | ⟨rfl, rfl⟩
  · exact .inl rfl
  · rcases h' with rfl | rfl | ⟨h, -⟩
    · exact .inr rfl
    · exact .inr rfl
    · cases h
  · exact .inl rfl

theorem partsTaken_tables {s t : State} {links alarms : Bool} (h : PartsTaken s t links alarms) : t.tables = s.tables := by
  rw [h.2.2.2.2.2.2]

theorem resetLinkConv_lc (v : Conv) : (resetLinkConv v).lc = v.lc := by
  unfold resetLinkConv
  rw [enterDark_eq]
  split <;> rfl

theorem partsTaken_lc {s t : State} {links alarms : Bool} (h : PartsTaken s t links alarms) (l : LinkId) :
    t.cv[l].lc = s.cv[l].lc := by
  rw [(h.1 l).2]
  split
  · exact resetLinkConv_lc _
  · rfl

/-- Two of the parts in turn, neither taken twice, have the effect of both (R176). -/
theorem partsTaken_trans {s u t : State} {l₁ a₁ l₂ a₂ : Bool} (hu : PartsTaken s u l₁ a₁) (ht : PartsTaken u t l₂ a₂)
    (hl : ¬ (l₁ = true ∧ l₂ = true)) (ha : ¬ (a₁ = true ∧ a₂ = true)) : PartsTaken s t (l₁ || l₂) (a₁ || a₂) := by
  have hT := partsTaken_tables hu
  have htow := partsTaken_toward ht
  obtain ⟨hlink, hgain, hsource, hrule, hdue, hport, hframe⟩ := hu
  obtain ⟨hlink', hgain', hsource', hrule', hdue', hport', hframe'⟩ := ht
  have hrecord (p : ProgId) : u.record p = s.record p := by simp only [State.record, State.active, hT]
  refine ⟨fun l => ?_, fun p => ⟨?_, fun r => ?_⟩, fun c => ⟨fun h => ?_, fun h1 h2 h3 => ?_, fun h1 h2 => ?_⟩, fun r => ?_, ?_,
    ?_, ?_⟩
  · obtain ⟨hrx, hcv⟩ := hlink l
    obtain ⟨hrx', hcv'⟩ := hlink' l
    rw [hrx', hcv', hrx, hcv]
    cases l₁ with
    | false => cases l₂ <;> exact ⟨rfl, rfl⟩
    | true => cases l₂ with
      | false => exact ⟨rfl, rfl⟩
      | true => exact absurd ⟨rfl, rfl⟩ hl
  · rw [(hgain' p).1, (hgain p).1]
  · rw [(hgain' p).2 r, (hgain p).2 r, hrecord, hrule r]
    cases a₁ with
    | false =>
      have hmuted : (ruleReset l₁ false s.alarm.rules[r]).muted = s.alarm.rules[r].muted := by cases l₁ <;> rfl
      rw [hmuted]
      simp
    | true =>
      have ha₂ : a₂ = false := Bool.eq_false_iff.2 fun h => ha ⟨rfl, h⟩
      rw [ha₂]
      simp
  · cases l₂ with
    | true => exact (hsource' c).1 rfl
    | false =>
      have hprimary := (hsource c).1 (by simpa using h)
      have htow := htow c
      rw [hprimary] at htow
      rcases htow with h | h | ⟨h, -⟩
      · exact h
      · exact h
      · cases h
  · obtain ⟨rfl, rfl⟩ := Bool.or_eq_false_iff.1 h1
    cases a₁ with
    | true =>
      have ha₂ : a₂ = false := Bool.eq_false_iff.2 fun h => ha ⟨rfl, h⟩
      exact ((hsource' c).2.2 rfl fun h => by rw [ha₂] at h; exact absurd h.1 Bool.false_ne_true).trans
        ((hsource c).2.1 rfl rfl h3)
    | false =>
      have hstay := (hsource c).2.2 rfl fun h => absurd h.1 Bool.false_ne_true
      have hsw : Switched u c := by
        obtain ⟨r, hr⟩ := h3
        exact ⟨r, by rw [hrule r]; exact hr⟩
      have hC : u.cv = s.cv := Vector.ext fun i hi => (hlink ⟨i, hi⟩).2
      exact ((hsource' c).2.1 rfl (by simpa using h2) hsw).trans (revertedSource_congr hT hC hstay)
  · obtain ⟨rfl, rfl⟩ := Bool.or_eq_false_iff.1 h1
    have hstay := (hsource c).2.2 rfl fun h => h2 ⟨by rw [h.1]; rfl, h.2⟩
    refine ((hsource' c).2.2 rfl fun h => ?_).trans hstay
    have ha₁ : a₁ = false := Bool.eq_false_iff.2 fun e => ha ⟨e, h.1⟩
    subst ha₁
    obtain ⟨r, hr⟩ := h.2
    rw [hrule r] at hr
    exact h2 ⟨by rw [h.1]; rfl, r, hr⟩
  · rw [hrule' r, hrule r]
    cases l₁ <;> cases a₁ <;> cases l₂ <;> cases a₂ <;> rfl
  · rw [hdue', hdue]
    cases a₁ <;> cases a₂ <;> rfl
  · rw [hport']
    cases l₁ with
    | false =>
      have hrx : u.rx = s.rx := Vector.ext fun i hi => (hlink ⟨i, hi⟩).1
      have hloss : linkLossPort s false = s.port := if_neg fun h => absurd h.1 Bool.false_ne_true
      rw [hloss] at hport
      rw [linkLossPort_notices hport hrx, hport]
      cases a₁ <;> cases a₂ <;> rfl
    | true =>
      have hl₂ : l₂ = false := Bool.eq_false_iff.2 fun h => hl ⟨rfl, h⟩
      subst hl₂
      have hloss : linkLossPort u false = u.port := if_neg fun h => absurd h.1 Bool.false_ne_true
      rw [hloss, hport]
      cases a₁ <;> cases a₂ <;> rfl
  · rw [hframe', hframe]

/-- The lines that follow the sources through one part follow them through two (R70). -/
theorem partsTaken_follows {s u t : State} {l₁ a₁ l₂ a₂ : Bool} (hu : PartsTaken s u l₁ a₁) (ht : PartsTaken u t l₂ a₂)
    {c : ChannelId} (hline : Safety.LineFollows s u c) (hline' : Safety.LineFollows u t c) : Safety.LineFollows s t c := by
  refine lineFollows_trans (partsTaken_tables ht) (partsTaken_lc ht) hline hline' ?_
  have h := toward_once s.active.slotMap[c] (partsTaken_toward hu c) (partsTaken_toward ht c)
  have hA : u.active = s.active := by unfold State.active; rw [partsTaken_tables hu]
  have hA' : t.active = s.active := by unfold State.active; rw [partsTaken_tables ht, partsTaken_tables hu]
  unfold State.selectedOf
  rwa [hA', hA]

/-! ### The two parts themselves -/

theorem changeSource_primary_all (s : State) (c : ChannelId) :
    (forChannels (fun s c => s.changeSource c .primary) s).sources[c] = .primary ∧
    Safety.LineFollows s (forChannels (fun s c => s.changeSource c .primary) s) c := by
  obtain ⟨hfollow, t, -, -, hsource⟩ := forChannels_follows (f := fun s c => s.changeSource c .primary)
    (fun t c => .inr ⟨_, rfl⟩) s c
  refine ⟨hsource.trans ?_, hfollow⟩
  rw [changeSource_sources]
  exact Vector.getElem_set_self _

theorem changeSource_primary_frame (s : State) : forChannels (fun s c => s.changeSource c .primary) s =
    { s with sources := (forChannels (fun s c => s.changeSource c .primary) s).sources,
             lines := (forChannels (fun s c => s.changeSource c .primary) s).lines } :=
  forChannels_keeps (P := fun t => t = { s with sources := t.sources, lines := t.lines })
    (f := fun s c => s.changeSource c .primary) (fun t c ht => by rw [changeSource_frame]; rw [ht]) (s := s) rfl

/-- The LINKS part (R20, R28, R56). -/
theorem resetLinks_taken (s : State) : PartsTaken s s.resetLinks true false ∧ ∀ c, Safety.LineFollows s s.resetLinks c := by
  obtain ⟨hlinks, hport, hmoved, -⟩ := resetLinks_items s
  unfold State.resetLinks State.resetSources
  generalize forLinks State.resetLink s = u at *
  simp only
  have hall := changeSource_primary_all (u.setAlarm { u.alarm with rules := u.alarm.rules.map fun r => { r with switched := 0#32 } })
  have hframe := changeSource_primary_frame (u.setAlarm { u.alarm with rules := u.alarm.rules.map fun r => { r with switched := 0#32 } })
  generalize forChannels (fun s c => s.changeSource c .primary)
    (u.setAlarm { u.alarm with rules := u.alarm.rules.map fun r => { r with switched := 0#32 } }) = t at *
  have halarm : t.alarm = { s.alarm with rules := s.alarm.rules.map fun r => { r with switched := 0#32 } } := by
    rw [hframe, hmoved]; rfl
  have hgain : t.gain = s.gain := by rw [hframe, hmoved]; rfl
  refine ⟨⟨fun l => ?_, fun p => ⟨by rw [hgain], fun r => by rw [hgain]; simp⟩, fun c => ⟨fun _ => (hall c).1, nofun, nofun⟩,
    fun r => ?_, ?_, ?_, ?_⟩, fun c => ?_⟩
  · rw [hframe]
    exact hlinks l
  · rw [halarm]
    exact Vector.getElem_map _ _
  · rw [halarm]
    rfl
  · have htport : t.port = u.port := by rw [hframe]; rfl
    rw [htport, hport]
    unfold linkLossPort
    by_cases hframed : s.rx[s.port.mlk].state = .framed
    · rw [if_pos hframed, if_pos ⟨rfl, hframed⟩]
      exact takeReport_leftFramed_notices s.port s.port.notices
    · rw [if_neg hframed, if_neg fun h => hframed h.2]
      rfl
  · rw [hframe, hmoved]
    rfl
  · refine lineFollows_congr (s' := u.setAlarm { u.alarm with rules := u.alarm.rules.map fun r => { r with switched := 0#32 } })
      (t' := t) ⟨?_, ?_⟩ ⟨rfl, rfl⟩ ?_ rfl rfl (hall c).2
    · rw [State.setAlarm, hmoved]
    · rw [State.setAlarm, hmoved]
    · rw [State.setAlarm, hmoved]

/-- Rules returned to QUIET without a notice: their actions released, every other rule as it was (R133, R138). -/
def Silenced (s t : State) (rs : List RuleId) : Prop :=
  Safety.Released s t (fun r => r ∈ rs) ∧ (∀ r ∈ rs, t.alarm.rules[r] = quietRule) ∧
  (∀ r : RuleId, r ∉ rs → t.alarm.rules[r] = s.alarm.rules[r]) ∧
  t = { s with gain := t.gain, alarm := t.alarm, sources := t.sources, lines := t.lines }

theorem silenceRule_silenced (s : State) (r : RuleId) : Silenced s (s.silenceRule r) [r] := by
  obtain ⟨hreleased, hrule, hother, -, -, hframe⟩ := clearRule_cleared s r 0
  have hclear : s.clearRule r s.tables.ruleRecords[r] 0 =
      (s.silenceRule r).setPort (s.clearRule r s.tables.ruleRecords[r] 0).port := rfl
  have hport : (s.silenceRule r).port = s.port := by
    unfold State.silenceRule
    rw [releaseAction_frame]
    rfl
  generalize s.clearRule r s.tables.ruleRecords[r] 0 = t at *
  generalize s.silenceRule r = u at *
  have hback : u = t.setPort s.port := by
    rw [hclear, ← hport]
    rfl
  refine ⟨released_of_same (released_congr (fun q => List.mem_singleton.symm) hreleased) ?_ ?_ ?_ ?_ ?_, fun q hq => ?_,
    fun q hq => ?_, ?_⟩
  · rw [hback]; rfl
  · rw [hback]; rfl
  · rw [hback]; rfl
  · rw [hback]; rfl
  · rw [hback]; rfl
  · rw [List.mem_singleton.1 hq, hback]
    exact hrule
  · rw [hback]
    exact hother q fun h => hq (List.mem_singleton.2 h)
  · rw [hback, State.setPort, hframe]

theorem silenced_cons {s u t : State} {r : RuleId} {rs : List RuleId} (hr : r ∉ rs) (hu : Silenced s u [r])
    (ht : Silenced u t rs) : Silenced s t (r :: rs) := by
  obtain ⟨hreleased, hquiet, hother, hframe⟩ := hu
  obtain ⟨hreleased', hquiet', hother', hframe'⟩ := ht
  have hrest (q : RuleId) (hq : q ∈ rs) : u.alarm.rules[q] = s.alarm.rules[q] :=
    hother q fun h => hr (by rwa [List.mem_singleton.1 h] at hq)
  refine ⟨released_congr (fun q => ?_) (released_trans hreleased hreleased' (by rw [hframe]) (by rw [hframe])
    (by rw [hframe']) (by rw [hframe']) hrest), fun q hq => ?_, fun q hq => ?_, ?_⟩
  · simp only [List.mem_cons, List.not_mem_nil, or_false]
  · rcases List.mem_cons.1 hq with rfl | hq
    · exact (hother' q hr).trans (hquiet q (List.mem_singleton.2 rfl))
    · exact hquiet' q hq
  · rw [List.mem_cons, not_or] at hq
    exact (hother' q hq.2).trans (hother q fun h => hq.1 (List.mem_singleton.1 h))
  · rw [hframe', hframe]

theorem silenceRules_silenced : ∀ (rs : List RuleId) (s : State), rs.Nodup → Silenced s (rs.foldl State.silenceRule s) rs
  | [], s, _ => ⟨released_congr (fun _ => by simp) (released_none s), fun _ h => absurd h List.not_mem_nil, fun _ _ => rfl, rfl⟩
  | r :: rs, s, hnodup => by
    obtain ⟨hr, hrest⟩ := List.nodup_cons.1 hnodup
    exact silenced_cons hr (silenceRule_silenced s r) (silenceRules_silenced rs (s.silenceRule r) hrest)

/-- The ALARMS part (R138). -/
theorem resetAlarms_taken (s : State) : PartsTaken s s.resetAlarms false true ∧ ∀ c, Safety.LineFollows s s.resetAlarms c := by
  obtain ⟨⟨hgain, hsource⟩, hquiet, -, hframe⟩ := silenceRules_silenced allRules s (List.nodup_finRange 32)
  unfold State.resetAlarms forRules
  generalize allRules.foldl State.silenceRule s = u at *
  simp only
  have hexists (c : ChannelId) : (∃ r, r ∈ allRules ∧ hasMember s.alarm.rules[r].switched c = true) ↔ Switched s c :=
    exists_congr fun r => ⟨And.right, fun h => ⟨List.mem_finRange r, h⟩⟩
  refine ⟨⟨fun l => ?_, fun p => ⟨(hgain p).1, fun r => ?_⟩, fun c => ⟨nofun, fun _ _ h => ?_, fun _ h => ?_⟩,
    fun r => hquiet r (List.mem_finRange r), rfl, ?_, ?_⟩, fun c => ?_⟩
  · rw [hframe]
    exact ⟨rfl, rfl⟩
  · rw [(hgain p).2 r]
    simp [allRules]
  · exact (hsource c).1 ((hexists c).2 h)
  · exact (hsource c).2.1 fun h' => h ⟨rfl, (hexists c).1 h'⟩
  · have hport : u.port = s.port := by rw [hframe]
    simp only [hport, linkLossPort]
    rfl
  · rw [hframe]
  · exact lineFollows_congr (s' := s) (t' := u) ⟨rfl, rfl⟩ ⟨rfl, rfl⟩ rfl rfl rfl (hsource c).2.2

/-! ### The lines of a mask -/

/-- The DELAY part sets each line to its target without a move (R76). -/
theorem resetDelay_lines (s : State) : s.resetDelay = { s with lines := s.resetDelay.lines } ∧
    ∀ c : ChannelId, Safety.SetAtOnce s c s.lines[c] s.resetDelay.lines[c] s.lines[c].wptr := by
  have hkeep (t : State) (c : ChannelId) (ht : t = { s with lines := t.lines }) :
      t.setLine c (setLineNow t.lines[c] (t.lineTarget c)) =
        { s with lines := (t.setLine c (setLineNow t.lines[c] (t.lineTarget c))).lines } := by
    unfold State.setLine
    rw [ht]
  refine ⟨forChannels_keeps (P := fun t => t = { s with lines := t.lines })
    (f := fun t c => t.setLine c (setLineNow t.lines[c] (t.lineTarget c))) hkeep (s := s) rfl, fun c => ?_⟩
  obtain ⟨t, ht, hline, hset⟩ := forChannels_item (view := fun t c => t.lines[c])
    (f := fun t c => t.setLine c (setLineNow t.lines[c] (t.lineTarget c))) (P := fun t => t = { s with lines := t.lines })
    (fun t i j h => State.setLine_get_ne t i j _ h) hkeep (s := s) rfl c
  have hsets := (setLineNow_sets t c t.lines[c]).1
  rw [hline] at hsets
  have hfinal : s.resetDelay.lines[c] = setLineNow s.lines[c] (t.lineTarget c) := by
    rw [← hline]
    exact hset.trans (State.setLine_get_self t c _)
  rw [hfinal]
  refine ⟨?_, hsets.2⟩
  refine (aimsAt_congr (s := s) (t := t) ?_ ?_ c ?_ _).1 hsets.1
  · rw [ht]
  · rw [ht]
  · rw [ht]

theorem resetGain_gain (s : State) : s.resetGain = { s with gain := s.resetGain.gain } ∧
    ∀ p : ProgId, s.resetGain.gain[p] = if s.record p ≠ none then resetGainOf s.gain[p] else s.gain[p] := by
  have hkeep (t : State) (p : ProgId) (ht : t = { s with gain := t.gain }) :
      (if t.present p then t.setGain p (resetGainOf t.gain[p]) else t) =
        { s with gain := (if t.present p then t.setGain p (resetGainOf t.gain[p]) else t).gain } := by
    split
    · unfold State.setGain
      rw [ht]
    · exact ht
  refine ⟨forProgs_keeps (P := fun t => t = { s with gain := t.gain })
    (f := fun t p => if t.present p then t.setGain p (resetGainOf t.gain[p]) else t) hkeep (s := s) rfl, fun p => ?_⟩
  obtain ⟨t, ht, hgain, hfinal⟩ := forProgs_item (view := fun t p => t.gain[p])
    (f := fun t p => if t.present p then t.setGain p (resetGainOf t.gain[p]) else t) (P := fun t => t = { s with gain := t.gain })
    (fun t i j h => by
      split
      · exact State.setGain_get_ne t i j _ h
      · rfl) hkeep (s := s) rfl p
  have hrecord : t.record p = s.record p := by rw [ht]; rfl
  refine hfinal.trans ?_
  unfold State.present
  rw [hrecord]
  cases hr : s.record p with
  | none => exact hgain
  | some r =>
    refine (State.setGain_get_self t p _).trans ?_
    rw [hgain]
    rfl

/-- A part that the mask names, or nothing (R176). -/
theorem linksPart_taken (s : State) (b : Bool) : PartsTaken s (s.part b State.resetLinks) b false ∧
    ∀ c, Safety.LineFollows s (s.part b State.resetLinks) c := by
  cases b with
  | true => exact resetLinks_taken s
  | false => exact ⟨partsTaken_refl s, lineFollows_refl s⟩

theorem alarmsPart_taken (s : State) (b : Bool) : PartsTaken s (s.part b State.resetAlarms) false b ∧
    ∀ c, Safety.LineFollows s (s.part b State.resetAlarms) c := by
  cases b with
  | true => exact resetAlarms_taken s
  | false => exact ⟨partsTaken_refl s, lineFollows_refl s⟩

/-- The LINKS part and then the ALARMS part, as far as they are taken here. -/
def State.linksAndAlarms (s : State) (links alarms : Bool) : State :=
  (s.part links State.resetLinks).part alarms State.resetAlarms

theorem linksAndAlarms_taken (s : State) (links alarms : Bool) : PartsTaken s (s.linksAndAlarms links alarms) links alarms ∧
    ∀ c, Safety.LineFollows s (s.linksAndAlarms links alarms) c := by
  obtain ⟨hlinks, hfollow⟩ := linksPart_taken s links
  obtain ⟨halarms, hfollow'⟩ := alarmsPart_taken (s.part links State.resetLinks) alarms
  have hboth := partsTaken_trans hlinks halarms (fun h => absurd h.2 Bool.false_ne_true) (fun h => absurd h.1 Bool.false_ne_true)
  rw [Bool.or_false, Bool.false_or] at hboth
  exact ⟨hboth, fun c => partsTaken_follows hlinks halarms (hfollow c) (hfollow' c)⟩

theorem lineFollows_wptr {s t : State} {c : ChannelId} (h : Safety.LineFollows s t c) : t.lines[c].wptr = s.lines[c].wptr := by
  by_cases hsel : t.selectedOf c = s.selectedOf c
  · rw [h.2 hsel]
  · obtain ⟨-, hanswer⟩ := h.1 hsel
    revert hanswer
    cases s.lines[c].move <;> simp only <;> intro hanswer <;> rw [hanswer]
    · split <;> rfl
    · rfl
    · rfl
    · rfl

/-- What the parts of a mask leave of a line: without DELAY it follows its source, and with DELAY it is set at once, before or
after the CUT of a changed source (R70, R76, log entry 10). -/
def LineReset (s t : State) (delay : Bool) (c : ChannelId) : Prop :=
  (delay = false → Safety.LineFollows s t c) ∧
  (delay = true → t.selectedOf c = s.selectedOf c → Safety.SetAtOnce t c s.lines[c] t.lines[c] s.lines[c].wptr) ∧
  (delay = true → t.selectedOf c ≠ s.selectedOf c → Safety.SetAtOnce t c s.lines[c] t.lines[c] s.lines[c].wptr ∨
    ∃ l : Line, Safety.SetAtOnce s c s.lines[c] l s.lines[c].wptr ∧ Safety.CutAnswer t c l t.lines[c] true)

/-- The DELAY part between two groups of the other parts. -/
theorem lineReset_between {s u v t : State} {l₁ a₁ l₂ a₂ : Bool} (hu : PartsTaken s u l₁ a₁)
    (hfollow : ∀ c, Safety.LineFollows s u c) (hv : v = { u with lines := v.lines })
    (hset : ∀ c : ChannelId, Safety.SetAtOnce u c u.lines[c] v.lines[c] u.lines[c].wptr)
    (ht : PartsTaken v t l₂ a₂) (hfollow' : ∀ c, Safety.LineFollows v t c) (c : ChannelId) : LineReset s t true c := by
  have hTu := partsTaken_tables hu
  have hTt := partsTaken_tables ht
  have hTv : v.tables = u.tables := by rw [hv]
  have hsv : v.sources = u.sources := by rw [hv]
  have hcv : v.cv = u.cv := by rw [hv]
  have hselv : v.selectedOf c = u.selectedOf c := selectedOf_congr hTv (by rw [hsv])
  have honce : u.selectedOf c = s.selectedOf c ∨ t.selectedOf c = u.selectedOf c := by
    have h := toward_once s.active.slotMap[c] (partsTaken_toward hu c) (by rw [← hsv]; exact partsTaken_toward ht c)
    have hA : u.active = s.active := by unfold State.active; rw [hTu]
    have hA' : t.active = s.active := by unfold State.active; rw [hTt, hTv, hTu]
    unfold State.selectedOf
    rwa [hA', hA]
  have hlct (l : LinkId) : t.cv[l].lc = u.cv[l].lc := by rw [partsTaken_lc ht, hcv]
  have hlcu := partsTaken_lc hu
  obtain ⟨haim, heq⟩ := hset c
  rw [lineFollows_wptr (hfollow c)] at heq
  have hstand (h : t.selectedOf c = u.selectedOf c) : Safety.SetAtOnce t c s.lines[c] t.lines[c] s.lines[c].wptr := by
    rw [(hfollow' c).2 (h.trans hselv.symm)]
    exact ⟨(aimsAt_of_latency (by rw [hTt, hTv]) hlct h _).2 haim, heq⟩
  refine ⟨nofun, fun _ hsel => ?_, fun _ hsel => ?_⟩
  · exact hstand (honce.elim (fun h => hsel.trans h.symm) id)
  · rcases honce with h | h
    · refine .inr ⟨v.lines[c], ⟨(aimsAt_of_latency hTu hlcu h _).1 haim, heq⟩, (hfollow' c).1 ?_⟩
      rw [hselv, h]
      exact hsel
    · exact .inl (hstand h)

/-- The parts of one mask, after MEASURE and GAIN (R176). -/
def State.laterParts (s : State) (links delay alarms late late' : Bool) : State :=
  ((s.linksAndAlarms (links && late) (alarms && late')).part delay State.resetDelay).linksAndAlarms
    (links && !late) (alarms && !late')

theorem laterParts_taken (s : State) (links delay alarms late late' : Bool) :
    PartsTaken s (s.laterParts links delay alarms late late') links alarms ∧
    ∀ c, LineReset s (s.laterParts links delay alarms late late') delay c := by
  unfold State.laterParts
  obtain ⟨hu, hfollow⟩ := linksAndAlarms_taken s (links && late) (alarms && late')
  generalize s.linksAndAlarms (links && late) (alarms && late') = u at *
  have hv : u.part delay State.resetDelay = { u with lines := (u.part delay State.resetDelay).lines } := by
    cases delay with
    | true => exact (resetDelay_lines u).1
    | false => rfl
  have hset : delay = true → ∀ c : ChannelId,
      Safety.SetAtOnce u c u.lines[c] (u.part delay State.resetDelay).lines[c] u.lines[c].wptr := by
    rintro rfl
    exact (resetDelay_lines u).2
  have hstay : delay = false → u.part delay State.resetDelay = u := by
    rintro rfl
    rfl
  generalize u.part delay State.resetDelay = v at *
  obtain ⟨ht, hfollow'⟩ := linksAndAlarms_taken v (links && !late) (alarms && !late')
  generalize v.linksAndAlarms (links && !late) (alarms && !late') = t at *
  have hsv : PartsTaken s v (links && late) (alarms && late') := by
    rw [hv]
    exact partsTaken_lines hu _
  have hboth := partsTaken_trans hsv ht (by cases links <;> cases late <;> simp) (by cases alarms <;> cases late' <;> simp)
  have hl : (links && late || links && !late) = links := by cases links <;> cases late <;> rfl
  have ha : (alarms && late' || alarms && !late') = alarms := by cases alarms <;> cases late' <;> rfl
  rw [hl, ha] at hboth
  refine ⟨hboth, fun c => ?_⟩
  by_cases hd : delay = true
  · rw [hd]
    exact lineReset_between hu hfollow hv (hset hd) ht hfollow' c
  · have hd' := Bool.eq_false_iff.2 hd
    rw [hstay hd'] at ht hfollow'
    exact ⟨fun _ => partsTaken_follows hu ht (hfollow c) (hfollow' c), fun h => absurd h hd, fun h => absurd h hd⟩

/-- The MEASURE and GAIN parts, as far as the mask names them (R98, R117). -/
def State.measureAndGain (s : State) (measure gain : Bool) : State :=
  (s.part measure State.resetMeasure).part gain State.resetGain

theorem measureAndGain_fields (s : State) (measure gain : Bool) :
    s.measureAndGain measure gain = { s with
      meas := (s.measureAndGain measure gain).meas, loud := (s.measureAndGain measure gain).loud,
      gain := (s.measureAndGain measure gain).gain } ∧
    (∀ c : ChannelId, (s.measureAndGain measure gain).meas[c] = if measure then resetMeas else s.meas[c]) ∧
    (∀ p : ProgId, (s.measureAndGain measure gain).loud[p] = if measure then clearedLoud else s.loud[p]) ∧
    ∀ p : ProgId, (s.measureAndGain measure gain).gain[p] =
      if gain = true ∧ s.record p ≠ none then resetGainOf s.gain[p] else s.gain[p] := by
  unfold State.measureAndGain
  have hmeasure : s.part measure State.resetMeasure = { s with
        meas := (s.part measure State.resetMeasure).meas, loud := (s.part measure State.resetMeasure).loud } ∧
      (∀ c : ChannelId, (s.part measure State.resetMeasure).meas[c] = if measure then resetMeas else s.meas[c]) ∧
      ∀ p : ProgId, (s.part measure State.resetMeasure).loud[p] = if measure then clearedLoud else s.loud[p] := by
    cases measure with
    | true => exact ⟨rfl, fun c => Vector.getElem_replicate c.isLt, fun p => Vector.getElem_replicate p.isLt⟩
    | false => exact ⟨rfl, fun _ => rfl, fun _ => rfl⟩
  generalize s.part measure State.resetMeasure = u at *
  obtain ⟨hframe, hmeas, hloud⟩ := hmeasure
  cases gain with
  | false =>
    refine ⟨?_, hmeas, hloud, fun p => ?_⟩
    · change u = { s with meas := u.meas, loud := u.loud, gain := u.gain }
      rw [hframe]
    · rw [if_neg fun h => absurd h.1 Bool.false_ne_true]
      change u.gain[p] = _
      rw [hframe]
  | true =>
    obtain ⟨hframe', hgain⟩ := resetGain_gain u
    change u.resetGain = { s with meas := u.resetGain.meas, loud := u.resetGain.loud, gain := u.resetGain.gain } ∧
      (∀ c : ChannelId, u.resetGain.meas[c] = _) ∧ (∀ p : ProgId, u.resetGain.loud[p] = _) ∧
      ∀ p : ProgId, u.resetGain.gain[p] = _
    generalize u.resetGain = v at *
    have hmeas' : v.meas = u.meas := by rw [hframe']
    have hloud' : v.loud = u.loud := by rw [hframe']
    refine ⟨?_, fun c => ?_, fun p => ?_, fun p => ?_⟩
    · rw [hframe', hframe]
    · rw [hmeas']; exact hmeas c
    · rw [hloud']; exact hloud p
    · rw [hgain p]
      have hrecord : u.record p = s.record p := by rw [hframe]; rfl
      have hsame : u.gain = s.gain := by rw [hframe]
      rw [hrecord, hsame]
      by_cases h : s.record p ≠ none
      · rw [if_pos h, if_pos ⟨rfl, h⟩]
      · rw [if_neg h, if_neg fun h' => h h'.2]

/-- The management link's loss discards a message in progress, and without one the port stands (R20, R154). -/
theorem linkLossPort_cases {g : State} {p : Port} {rx : Vector Receiver 4} (hport : g.port = p) (hrx : g.rx = rx) (links : Bool) :
    linkLossPort g links = { p with
      assembler := (linkLossPort g links).assembler, errors := (linkLossPort g links).errors } ∧
    (¬ (links = true ∧ rx[p.mlk].state = .framed ∧ p.assembler.collecting = true) → linkLossPort g links = p) ∧
    (links = true ∧ rx[p.mlk].state = .framed ∧ p.assembler.collecting = true → p.assembler.quiet < 64 →
      (linkLossPort g links).assembler = idleAssembler ∧
      (linkLossPort g links).errors = { p.errors with linkLoss := min 65535 (p.errors.linkLoss + 1) }) := by
  subst hport hrx
  unfold linkLossPort
  refine ⟨?_, fun hno => ?_, fun ⟨hlinks, hframed, hon⟩ hq => ?_⟩
  · split
    · exact takeReport_leftFramed_frame g.port
    · rfl
  · split
    · next h =>
      refine (takeReport_idle ?_).2
      exact Bool.eq_false_iff.2 fun hon => hno ⟨h.1, h.2, hon⟩
    · rfl
  · rw [if_pos ⟨hlinks, hframed⟩, takeReport_leftFramed hon hq]
    exact ⟨rfl, rfl⟩

/-- A converter under a LINKS reset, DARK already or not (R32, R56). -/
theorem resetLinkConv_eq (v : Conv) : resetLinkConv v =
    let dark : Conv := { v with
      state := .dark, ring := Vector.replicate 64 zeroSamples, w := 0#32, m := 0, n := 0, q0 := 0, qInt := 0,
      qApplied := 0, slips := 0, saturations := 0, window := 0, lastSlip := none, filter := none, leaveDue := false }
    if v.state = .dark then dark else { dark with rampStart := v.last, rampCount := 0, jumpDue := false } := by
  unfold resetLinkConv
  rw [enterDark_eq]
  by_cases h : v.state = .dark
  · rw [if_pos h]
    simp only [h, if_true]
  · rw [if_neg h]
    simp only [if_neg h]

theorem resetParts_eq (s : State) (mask : Nat) : s.resetParts mask =
    ((s.measureAndGain (mask.testBit 1) (mask.testBit 2)).laterParts (mask.testBit 0) (mask.testBit 3) (mask.testBit 4)
      (Config.delayAfterLinks s.free) (Config.delayAfterAlarms s.free)).part (mask.testBit 3) State.tookFree := rfl

theorem resetDomains_eq (s : State) (a : Byte) : s.resetDomains [a] =
    if a.toNat = 0 ∨ 31 < a.toNat then (s, [4#8])
    else ((s.resetParts a.toNat).recordReset a, 0#8 :: a :: beBytes 4 s.tb.hfc.toNat) := by
  have hbyte : byteAt [a] 0 = a.toNat := rfl
  unfold State.resetDomains
  rw [if_neg (by simp), hbyte, beBytes_one, BitVec.ofNat_toNat, BitVec.setWidth_eq]
  rfl

/-- Settles O45: what each domain of the mask resets, and that no other does (R176). -/
theorem resetDomainsParts : Obligations.ResetDomainsParts := by
  intro s m rest a h hm links measure gain delay alarms
  have hrun := resetDomains_eq (s.takeCommand rest) a
  rw [← hm] at hrun
  refine ⟨fun hbad => ?_, fun h1 h31 => ?_⟩
  · rw [if_pos (hbad.imp (fun e => by rw [e]; rfl) id)] at hrun
    exact congrArg Host.Outcome.next (exec_of_ready h rfl hrun)
  · rw [if_neg (by omega), resetParts_eq] at hrun
    obtain ⟨hgframe, hmeas, hloud, hgain⟩ := measureAndGain_fields (s.takeCommand rest) measure gain
    change (s.takeCommand rest).resetDomains m.payload =
      (((((s.takeCommand rest).measureAndGain measure gain).laterParts links delay alarms
        (Config.delayAfterLinks s.free) (Config.delayAfterAlarms s.free)).part delay State.tookFree).recordReset a, _) at hrun
    generalize (s.takeCommand rest).measureAndGain measure gain = g at *
    obtain ⟨htaken, hlines⟩ := laterParts_taken g links delay alarms (Config.delayAfterLinks s.free)
      (Config.delayAfterAlarms s.free)
    generalize g.laterParts links delay alarms (Config.delayAfterLinks s.free) (Config.delayAfterAlarms s.free) = w at *
    obtain ⟨n, ht⟩ : ∃ n, (w.part delay State.tookFree).recordReset a =
        { w with port := { w.port with domain := some (a, w.tb.hfc) }, free := n } := by
      cases delay <;> exact ⟨_, rfl⟩
    rw [ht] at hrun
    obtain ⟨hlinks, hreasons, hsources, hrules, hdue, hport, hframe⟩ := htaken
    have hT : g.tables = s.tables := by rw [hgframe]; rfl
    have hS : g.sources = s.sources := by rw [hgframe]; rfl
    have hC : g.cv = s.cv := by rw [hgframe]; rfl
    have hL : g.lines = s.lines := by rw [hgframe]; rfl
    have hA : g.alarm = s.alarm := by rw [hgframe]; rfl
    have hR : g.rx = s.rx := by rw [hgframe]; rfl
    have hP : g.port = { s.port with commands := rest } := by rw [hgframe]; rfl
    have htb : w.tb = s.tb := by rw [hframe, hgframe]; rfl
    have hrecord (p : ProgId) : g.record p = s.record p := by simp only [State.record, State.active, hT]
    obtain ⟨hloss, hkept, hlost⟩ := linkLossPort_cases hP hR links
    have hgreasons (p : ProgId) : g.gain[p].reasons = s.gain[p].reasons := by
      rw [hgain p]
      split <;> rfl
    refine ⟨_, congrArg Host.Outcome.next (exec_of_ready h rfl hrun), fun l => ?_, fun c => ?_, fun p => ⟨?_, ?_, fun r => ?_,
      fun halarms hpresent hsound => ?_⟩, fun c => ?_, fun r => ?_, ?_, fun c => ?_, ?_, ?_, ?_⟩
    · obtain ⟨hrx, hcv⟩ := hlinks l
      rw [hR] at hrx
      rw [hC] at hcv
      rw [resetLinkConv_eq] at hcv
      exact ⟨hrx, hcv⟩
    · change w.meas[c] = _
      rw [hframe]
      exact hmeas c
    · change w.loud[p] = _
      rw [hframe]
      exact hloud p
    · refine (hreasons p).1.trans ?_
      rw [hgain p]
      rfl
    · rw [← hA, ← hrecord, ← hgreasons]
      exact (hreasons p).2 r
    · refine BitVec.eq_of_getLsbD_eq fun i hi => ?_
      have hmember := ((hreasons p).2 ⟨i, hi⟩).not
      have hheld := hsound.2.1 ⟨i, hi⟩ p (Option.ne_none_iff_isSome.1 hpresent)
      rw [hgreasons, hheld, hA, hrecord] at hmember
      have hout := hmember.2 fun hin => hin.2 ⟨halarms, hin.1, hpresent⟩
      rw [BitVec.getLsbD_zero]
      exact Bool.eq_false_iff.2 hout
    · obtain ⟨hprimary, hback, hstay⟩ := hsources c
      have hswitched : Switched g c ↔ ∃ r : RuleId, hasMember s.alarm.rules[r].switched c = true := by
        unfold Switched
        rw [hA]
      rw [hswitched] at hback hstay
      refine ⟨hprimary, fun h1 h2 h3 => (hback h1 h2 h3).trans (revertedSource_congr hT hC (by rw [hS])),
        fun h1 h2 => (hstay h1 h2).trans (by rw [hS])⟩
    · rw [← hA]
      exact hrules r
    · rw [← hA]
      exact hdue
    · obtain ⟨hfollow, hset, hcut⟩ := hlines c
      have hsel : g.selectedOf c = s.selectedOf c := selectedOf_congr hT (by rw [hS])
      rw [hsel, hL] at hset hcut
      refine ⟨fun hd => ?_, hset, fun hd hne => (hcut hd hne).imp id fun ⟨l, hl, hanswer⟩ => ⟨l, ⟨?_, hl.2⟩, hanswer⟩⟩
      · exact lineFollows_congr (s' := g) (t' := w) ⟨by rw [hS], by rw [hL]⟩ ⟨rfl, rfl⟩ hT.symm rfl rfl (hfollow hd)
      · exact (aimsAt_congr hT hC c (by rw [hS]) l).1 hl.1
    · change (¬ (links = true ∧ s.rx[s.port.mlk].state = .framed ∧ s.port.assembler.collecting = true) →
          w.port.assembler = s.port.assembler ∧ w.port.errors = s.port.errors) ∧
        (links = true ∧ s.rx[s.port.mlk].state = .framed ∧ s.port.assembler.collecting = true → s.port.assembler.quiet < 64 →
          w.port.assembler = idleAssembler ∧
          w.port.errors = { s.port.errors with linkLoss := min 65535 (s.port.errors.linkLoss + 1) })
      rw [hport]
      refine ⟨fun hno => ?_, hlost⟩
      rw [hkept hno]
      exact ⟨rfl, rfl⟩
    · change { w.port with domain := some (a, w.tb.hfc) } = { s.port with
        commands := rest, notices := if alarms then [] else s.port.notices, domain := some (a, s.tb.hfc),
        assembler := w.port.assembler, errors := w.port.errors }
      have hnotices : g.port.notices = s.port.notices := by rw [hP]
      rw [htb, hport, hloss, hnotices]
    · rw [hframe, hgframe]

end Sys2Proof.Machine
end

section
/-! PROOF. The steps of the alarm engine: O26, O27. -/

namespace Sys2Proof.Machine

/-! ### Notices of a state that differs in neither records nor slice (R136) -/

theorem noted_congr {s u : State} (hT : u.tables = s.tables) (hB : u.tb = s.tb) : Safety.noted u = Safety.noted s := by
  funext p r event value
  simp only [Safety.noted, hT, hB]

theorem returnsNoted_congr {s u : State} (hT : u.tables = s.tables) (hB : u.tb = s.tb) :
    Safety.returnsNoted u = Safety.returnsNoted s := by
  funext p ds
  unfold Safety.returnsNoted
  rw [noted_congr hT hB]

/-- The step of the rule that is first due, with the notices of return behind it. -/
theorem dueStep_head {s : State} {r : RuleId} {k : DueKind} {v : Int} {rest : List DueRule}
    (h : s.alarm.due = { rule := r, kind := k, value := v } :: rest) :
    s.dueStep r k = (s.takeDue { rule := r, kind := k, value := v }).makeReturns rest := by
  unfold State.dueStep
  rw [h]
  exact if_pos ⟨rfl, rfl⟩

/-! ### ALARM RAISE (R130) -/

/-- A rule's action has been applied and its sets recorded, for the record `e` (R24, R130 to R132). -/
def ActionApplied (s t : State) (r : RuleId) (e : RuleRecord) : Prop :=
  (∀ q : RuleId, q ≠ r → t.alarm.rules[q] = s.alarm.rules[q]) ∧
  (e.action = .none → t.alarm.rules[r].muted = 0#8 ∧ t.alarm.rules[r].switched = 0#32) ∧
  (e.action = .mute → t.alarm.rules[r].switched = 0#32 ∧ ∀ p : ProgId,
    (hasMember t.alarm.rules[r].muted p = true ↔ Safety.Names s e p) ∧
    (Safety.Names s e p → t.gain[p] = { s.gain[p] with reasons := insertMember s.gain[p].reasons r }) ∧
    (¬ Safety.Names s e p → t.gain[p] = s.gain[p])) ∧
  (e.action = .backup → t.alarm.rules[r].muted = 0#8 ∧ ∀ c : ChannelId,
    (hasMember t.alarm.rules[r].switched c = true ↔ Safety.Aims s e c ∧ Safety.Switchable s c) ∧
    (Safety.Aims s e c → Safety.Switchable s c → t.sources[c] = .backup) ∧
    (¬ (Safety.Aims s e c ∧ Safety.Switchable s c) → t.sources[c] = s.sources[c])) ∧
  (∀ c : ChannelId, Safety.LineFollows s t c) ∧
  (e.action ≠ .mute → t.gain = s.gain) ∧
  (e.action ≠ .backup → t.sources = s.sources ∧ t.lines = s.lines)

/-- A rule's state, timer and ack flag written, its action applied: the sets join the rule as it was written. -/
theorem applyAction_applied (s : State) (r : RuleId) (e : RuleRecord) : ActionApplied s (s.applyAction r e) r e := by
  refine ⟨(applyAction_rule s r · e |>.1), fun hx => ?_, fun hx => ?_, fun hx => ?_, fun c => ?_, fun hx => ?_, fun hx => ?_⟩
  · rw [applyAction_none r hx, State.setRule_get_self]
    exact ⟨rfl, rfl⟩
  · refine ⟨by rw [applyAction_mute r hx, State.setRule_get_self], fun p => ⟨?_, fun hn => ?_, fun hn => ?_⟩⟩
    · rw [applyAction_muted, hx, ← namedProgs_iff]
      simp
    · rw [applyAction_gain, if_pos ⟨hx, (namedProgs_iff s e p).2 hn⟩]
    · rw [applyAction_gain, if_neg fun h => hn ((namedProgs_iff s e p).1 h.2)]
  · obtain ⟨-, hitems⟩ := applyBackup_switching s (s.aimedChannels e)
    rw [applyAction_backup r hx, State.setRule_get_self]
    refine ⟨rfl, fun c => ?_⟩
    obtain ⟨hset, hsource, -⟩ := hitems c
    have hiff : hasMember (s.applyBackup (s.aimedChannels e)).2 c = true ↔ Safety.Aims s e c ∧ Safety.Switchable s c := by
      rw [hset, Bool.and_eq_true, decide_eq_true_iff, aimedChannels_iff, canSwitch_iff]
    refine ⟨hiff, fun ha hs => ?_, fun hn => ?_⟩
    · exact hsource.trans (if_pos (hiff.2 ⟨ha, hs⟩))
    · exact hsource.trans (if_neg fun h => hn (hiff.1 h))
  · cases hx : e.action with
    | none =>
      rw [applyAction_none r hx]
      exact lineFollows_refl s c
    | mute =>
      rw [applyAction_mute r hx]
      refine lineFollows_congr (s' := s) (t' := s) ⟨rfl, rfl⟩ ⟨?_, ?_⟩ rfl ?_ ?_ (lineFollows_refl s c) <;>
        (unfold State.setRule; rw [addReasons_frame])
    | backup =>
      rw [applyAction_backup r hx]
      obtain ⟨-, hitems⟩ := applyBackup_switching s (s.aimedChannels e)
      exact lineFollows_congr (s' := s) (t' := (s.applyBackup (s.aimedChannels e)).1) ⟨rfl, rfl⟩ ⟨rfl, rfl⟩ rfl rfl rfl
        (hitems c).2.2
  · refine Vector.ext fun i hi => ?_
    exact (applyAction_gain s r e ⟨i, hi⟩).trans (if_neg fun h => hx h.1)
  · cases h : e.action with
    | none =>
      rw [applyAction_none r h]
      exact ⟨rfl, rfl⟩
    | mute =>
      rw [applyAction_mute r h]
      unfold State.setRule
      rw [addReasons_frame]
      exact ⟨rfl, rfl⟩
    | backup => exact absurd h hx

/-- Settles O26: the rule in ACTIVE with its action applied, its notice made and those of the returns behind it (R130). -/
theorem alarmRaiseRule : Obligations.AlarmRaiseRule := by
  intro s r v rest hdue e
  have happlied := applyAction_applied (s.putRule r .active 0 false) r e
  obtain ⟨-, muted, switched, hrule⟩ := applyAction_rule (s.putRule r .active 0 false) r r e
  have hframe := applyAction_frame (s.putRule r .active 0 false) r e
  have hleft : ((s.putRule r .active 0 false).applyAction r e).alarm.due = s.alarm.due := applyAction_due _ r e
  have hrun : s.alarmRaise r = (((s.putRule r .active 0 false).applyAction r e).makeNotice r e .raised v).makeReturns rest :=
    dueStep_head hdue
  have hself : (s.putRule r .active 0 false).alarm.rules[r] = { s.alarm.rules[r] with state := .active, timer := 0, ack := false } :=
    State.setRule_get_self s r _
  have hother (q : RuleId) (hq : q ≠ r) : (s.putRule r .active 0 false).alarm.rules[q] = s.alarm.rules[q] :=
    State.setRule_get_ne s r q _ hq
  generalize (s.putRule r .active 0 false).applyAction r e = a at *
  have hT : a.tables = s.tables := by rw [hframe]; rfl
  have hB : a.tb = s.tb := by rw [hframe]; rfl
  have hP : a.port = s.port := by rw [hframe]; rfl
  have hnote : a.makeNotice r e .raised v = a.setPort (Safety.noted s s.port r .raised v) := by
    have h := makeNotice_notes a r .raised v
    rw [hT, hP, noted_congr hT hB] at h
    exact h
  rw [hnote, makeReturns_notes] at hrun
  obtain ⟨hothers, hnone, hmute, hbackup, hfollow, hgain, hsources⟩ := happlied
  rw [hself] at hrule
  refine ⟨_, congrArg Host.Outcome.next hrun, ?_, ?_, ?_, ?_, rfl, fun q hq => (hothers q hq).trans (hother q hq), hnone, hmute,
    hbackup, fun c => ?_, hgain, hsources, ?_⟩
  · change a.alarm.rules[r].state = .active
    rw [hrule]
  · change a.alarm.rules[r].timer = 0
    rw [hrule]
  · change a.alarm.rules[r].ack = false
    rw [hrule]
  · exact congrFun (congrFun (returnsNoted_congr hT hB) _) _
  · exact lineFollows_congr (s' := s.putRule r .active 0 false) (t' := a) ⟨rfl, rfl⟩ ⟨rfl, rfl⟩ rfl rfl rfl (hfollow c)
  · rw [State.setPort, hframe]
    rfl

/-! ### ALARM TIMER OUT (R128, R133) -/

/-- Settles O27: a latched rule is held, any other is cleared and its actions released (R128, R133). -/
theorem alarmTimerOutRule : Obligations.AlarmTimerOutRule := by
  intro s r v rest hdue held
  have hrun : s.alarmTimerOut r = (s.timerOutRule r s.tables.ruleRecords[r] v).makeReturns rest := dueStep_head hdue
  by_cases hheld : held
  · have hlatch : (s.tables.ruleRecords[r].latch && !s.alarm.rules[r].ack) = true := by
      rw [hheld.1, hheld.2]
      rfl
    have hout : s.timerOutRule r s.tables.ruleRecords[r] v =
        (s.putRule r .held 0 false).setPort (Safety.noted s s.port r .held v) := by
      unfold State.timerOutRule
      rw [if_pos hlatch]
      exact makeNotice_notes (s.putRule r .held 0 false) r .held v
    rw [hout, makeReturns_notes] at hrun
    rw [if_pos hheld]
    refine ⟨_, congrArg Host.Outcome.next hrun, ?_, rfl, fun q hq => State.setRule_get_ne s r q _ hq, fun _ =>
      ⟨State.setRule_get_self s r _, rfl, rfl, rfl⟩, fun h => absurd hheld h, rfl⟩
    exact congrFun (congrFun (returnsNoted_congr (s := s) rfl rfl) _) _
  · have hlatch : ¬ (s.tables.ruleRecords[r].latch && !s.alarm.rules[r].ack) = true := by
      rw [Bool.and_eq_true, Bool.not_eq_true']
      exact hheld
    have hout : s.timerOutRule r s.tables.ruleRecords[r] v = s.clearRule r s.tables.ruleRecords[r] v := by
      unfold State.timerOutRule
      exact if_neg hlatch
    obtain ⟨hreleased, hrule, hother, -, hport, hframe⟩ := clearRule_cleared s r v
    rw [hout, makeReturns_notes] at hrun
    generalize s.clearRule r s.tables.ruleRecords[r] v = a at *
    rw [if_neg hheld]
    refine ⟨_, congrArg Host.Outcome.next hrun, ?_, rfl, hother, fun h => absurd h hheld, fun _ =>
      ⟨hrule, released_of_same hreleased rfl rfl rfl rfl rfl⟩, ?_⟩
    · change Safety.returnsNoted a a.port rest = _
      rw [hport, returnsNoted_congr (s := s) (by rw [hframe]) (by rw [hframe])]
    · rw [hframe]

/-! ### The evaluation of a boundary (R122 to R128) -/

/-- The condition of a rule's kind, over its subject (R123 to R125). -/
def Condition (t : State) (e : RuleRecord) : Prop :=
  let c : ChannelId := Fin.ofNat 32 e.subject
  let p : ProgId := Fin.ofNat 8 e.subject
  let l : LinkId := Fin.ofNat 4 e.subject
  let runs := t.cv[l].state = .locked ∨ t.cv[l].state = .splicing
  match e.kind with
  | .silence => (t.meas[c].latest.peak : Int) < e.threshold ∧ t.selectedOf c ≠ none
  | .overload => e.threshold ≤ t.meas[c].latest.fsCount
  | .outputClip => e.threshold ≤ t.meas[c].latest.outClips
  | .loudnessHigh => ∃ (q : ProgRecord) (w : Window), t.record p = some q ∧ t.loud[p].window = some w ∧
      e.threshold < w.raw + q.offset
  | .loudnessLow => ∃ (q : ProgRecord) (w : Window), t.record p = some q ∧ t.loud[p].window = some w ∧
      w.raw + q.offset < e.threshold
  | .link => ¬ runs
  | .slip => ∃ k : BitVec 32, t.cv[l].lastSlip = some k ∧ 1 ≤ (t.tb.slice - k).toNat ∧
      ((t.tb.slice - k).toNat : Int) ≤ e.threshold
  | .ratioLimit => runs ∧ t.modeOf l = .convert ∧
      (t.cv[l].qInt = max (t.cv[l].q0 - 65536) 8388608 ∨ t.cv[l].qInt = min (t.cv[l].q0 + 65536) 37748735)
  | .delay => ∃ q : ProgRecord, t.record p = some q ∧
      ∃ m ∈ q.members, t.lines[m.channel].short = true ∨ t.lines[m.channel].clamped = true
  | .reference => t.tb.ref ≠ .locked

theorem windowLevel_some_iff (t : State) (p : ProgId) (P : Int → Prop) :
    (∃ x, t.windowLevel p = some x ∧ P x) ↔
      ∃ (q : ProgRecord) (w : Window), t.record p = some q ∧ t.loud[p].window = some w ∧ P (w.raw + q.offset) := by
  unfold State.windowLevel
  cases t.record p with
  | none => exact ⟨fun ⟨x, h, _⟩ => (by cases h), fun ⟨q, w, h, _⟩ => (by cases h)⟩
  | some q =>
    cases t.loud[p].window with
    | none => exact ⟨fun ⟨x, h, _⟩ => (by cases h), fun ⟨q, w, _, h, _⟩ => (by cases h)⟩
    | some w => exact ⟨fun ⟨x, h, hx⟩ => ⟨q, w, rfl, rfl, by cases h; exact hx⟩, fun ⟨q', w', h, h', hx⟩ => ⟨_, rfl, by
        cases h; cases h'; exact hx⟩⟩

theorem linkRuns_iff (t : State) (l : LinkId) : t.linkRuns l = true ↔ t.cv[l].state = .locked ∨ t.cv[l].state = .splicing := by
  simp [State.linkRuns]

/-- A rule's condition holds when that of its kind does (R123 to R125). -/
theorem conditionHolds_iff (t : State) (e : RuleRecord) : t.conditionHolds e = true ↔ Condition t e := by
  unfold State.conditionHolds Condition subjectChannel subjectProg subjectLink
  cases e.kind <;> dsimp only
  case silence => exact Bool.and_eq_true_iff.trans (and_congr decide_eq_true_iff Option.isSome_iff_ne_none)
  case overload => exact decide_eq_true_iff
  case outputClip => exact decide_eq_true_iff
  case loudnessHigh =>
    rw [← windowLevel_some_iff t _ fun x => e.threshold < x]
    cases t.windowLevel (Fin.ofNat 8 e.subject) <;> simp
  case loudnessLow =>
    rw [← windowLevel_some_iff t _ fun x => x < e.threshold]
    cases t.windowLevel (Fin.ofNat 8 e.subject) <;> simp
  case link => rw [Bool.not_eq_true', ← linkRuns_iff, Bool.not_eq_true]
  case slip =>
    generalize t.cv[(Fin.ofNat 4 e.subject : LinkId)].lastSlip = last
    unfold slipRecent
    cases last <;> simp
  case ratioLimit =>
    generalize t.cv[(Fin.ofNat 4 e.subject : LinkId)] = v
    unfold ratioLimit bandLow bandHigh
    rw [Bool.and_eq_true, Bool.and_eq_true, Bool.or_eq_true, Bool.or_eq_true, beq_iff_eq, beq_iff_eq, beq_iff_eq, beq_iff_eq,
      beq_iff_eq, and_assoc]
    rfl
  case delay =>
    unfold State.delayFlags State.delayFlag
    cases t.record (Fin.ofNat 8 e.subject) with
    | none => simp
    | some q =>
      rw [decide_eq_true_iff, List.length_pos_iff_exists_mem]
      simp only [List.mem_filter, Bool.or_eq_true]
      exact ⟨fun ⟨m, hm, h⟩ => ⟨q, rfl, m, hm, h⟩, fun ⟨q', hq, m, hm, h⟩ => ⟨m, by cases hq; exact hm, h⟩⟩
  case reference => exact bne_iff_ne

/-- An enabled rule whose condition holds (R126 to R128). -/
theorem evaluated_holds (e : RuleRecord) (x : Rule) :
    (x.state = .quiet → e.raiseTime = 0 → evaluatedRule e true x = x ∧ evaluatedDue e true x = some .raising) ∧
    (x.state = .quiet → e.raiseTime ≠ 0 → evaluatedRule e true x = { x with state := .onset, timer := e.raiseTime } ∧
      evaluatedDue e true x = none) ∧
    (x.state = .onset → x.timer ≤ 1 → evaluatedRule e true x = { x with timer := 0 } ∧ evaluatedDue e true x = some .raising) ∧
    (x.state = .onset → 1 < x.timer → evaluatedRule e true x = { x with timer := x.timer - 1 } ∧
      evaluatedDue e true x = none) ∧
    (x.state = .active → evaluatedRule e true x = x ∧ evaluatedDue e true x = none) ∧
    (x.state = .easing → evaluatedRule e true x = { x with state := .active, timer := 0 } ∧ evaluatedDue e true x = none) ∧
    (x.state = .held → evaluatedRule e true x = { x with state := .active, timer := 0, ack := false } ∧
      evaluatedDue e true x = some .returning) := by
  unfold evaluatedRule evaluatedDue
  refine ⟨fun h h' => ?_, fun h h' => ?_, fun h h' => ?_, fun h h' => ?_, fun h => ?_, fun h => ?_, fun h => ?_⟩ <;>
    simp only [h]
  · exact ⟨if_pos h', if_pos h'⟩
  · exact ⟨if_neg h', if_neg h'⟩
  · rw [show x.timer - 1 = 0 by omega]
    exact ⟨rfl, if_pos h'⟩
  · exact ⟨trivial, if_neg (by omega)⟩
  · exact ⟨trivial, trivial⟩
  · exact ⟨trivial, trivial⟩
  · exact ⟨trivial, trivial⟩

/-- An enabled rule whose condition does not hold (R126 to R128). -/
theorem evaluated_fails (e : RuleRecord) (x : Rule) :
    (x.state = .quiet → evaluatedRule e false x = x ∧ evaluatedDue e false x = none) ∧
    (x.state = .onset → evaluatedRule e false x = { x with state := .quiet, timer := 0 } ∧ evaluatedDue e false x = none) ∧
    (x.state = .active → e.clearTime = 0 → evaluatedRule e false x = x ∧ evaluatedDue e false x = some .timerOut) ∧
    (x.state = .active → e.clearTime ≠ 0 → evaluatedRule e false x = { x with state := .easing, timer := e.clearTime } ∧
      evaluatedDue e false x = none) ∧
    (x.state = .easing → x.timer ≤ 1 → evaluatedRule e false x = { x with timer := 0 } ∧
      evaluatedDue e false x = some .timerOut) ∧
    (x.state = .easing → 1 < x.timer → evaluatedRule e false x = { x with timer := x.timer - 1 } ∧
      evaluatedDue e false x = none) ∧
    (x.state = .held → evaluatedRule e false x = x ∧ evaluatedDue e false x = none) := by
  unfold evaluatedRule evaluatedDue
  refine ⟨fun h => ?_, fun h => ?_, fun h h' => ?_, fun h h' => ?_, fun h h' => ?_, fun h h' => ?_, fun h => ?_⟩ <;>
    simp only [h]
  · exact ⟨trivial, trivial⟩
  · exact ⟨trivial, trivial⟩
  · exact ⟨if_pos h', if_pos h'⟩
  · exact ⟨if_neg h', if_neg h'⟩
  · rw [show x.timer - 1 = 0 by omega]
    exact ⟨rfl, if_pos h'⟩
  · exact ⟨trivial, if_neg (by omega)⟩
  · exact ⟨trivial, trivial⟩

/-- A state that differs in the alarm engine and the port alone reads conditions and values alike. -/
theorem conditionHolds_congr {s t : State} (ht : t = { s with alarm := t.alarm, port := t.port }) (e : RuleRecord) :
    t.conditionHolds e = s.conditionHolds e ∧ t.noticeValue e = s.noticeValue e := by
  rw [ht]
  exact ⟨rfl, rfl⟩

theorem mem_evaluatedAll {s : State} {d : DueRule} : d ∈ allRules.filterMap s.dueAfter ↔ s.dueAfter d.rule = some d := by
  rw [List.mem_filterMap]
  constructor
  · rintro ⟨q, -, hq⟩
    rw [dueAfter_rule hq]
    exact hq
  · exact fun h => ⟨d.rule, List.mem_finRange d.rule, h⟩

/-- What the evaluation leaves due of a rule, as the list of the boundary shows it. -/
theorem dueAfter_mem (s : State) (r : RuleId) :
    (s.dueAfter r = none → ∀ d ∈ allRules.filterMap s.dueAfter, d.rule ≠ r) ∧
    ∀ k v, s.dueAfter r = some { rule := r, kind := k, value := v } →
      ({ rule := r, kind := k, value := v } : DueRule) ∈ allRules.filterMap s.dueAfter := by
  refine ⟨fun h d hd hr => ?_, fun k v h => mem_evaluatedAll.2 h⟩
  have := mem_evaluatedAll.1 hd
  rw [hr, h] at this
  cases this

/-- Settles O25: every rule after the boundary's evaluation, and what it leaves due (R122 to R128, R136). -/
theorem ruleEvaluation : Obligations.RuleEvaluation := by
  intro s hdue
  have hexec := exec_sliceBoundary hdue
  obtain ⟨-, -, -, -, -, -, -, -, htables, -⟩ := boundaryStart_unchanged (sameButLoudGain_boundaryWork s)
  have halarm : s.boundaryWork.alarm = s.alarm ∧ s.boundaryWork.port = s.port := by
    obtain ⟨loud, gain, hwork⟩ := sameButLoudGain_boundaryWork s
    have hstart := boundaryStart_frame s
    generalize s.boundaryStart = u at hwork hstart
    rw [hwork, hstart]
    exact ⟨rfl, rfl⟩
  obtain ⟨halarm, hport⟩ := halarm
  generalize s.boundaryWork = w at *
  have hframe := evaluateRules_frame w
  obtain ⟨hall, hrules⟩ := evaluateRules_alarm w
  have hsorted := evaluateRules_due_sorted w
  have hboundary : w.evaluateBoundary = { w.evaluateRules with
      alarm := { w.evaluateRules.alarm with due := Safety.stillDue w.evaluateRules.alarm.due },
      port := Safety.returnsNoted w.evaluateRules w.evaluateRules.port w.evaluateRules.alarm.due } :=
    makeReturns_notes _ _
  rw [hall] at hsorted hboundary
  generalize w.evaluateRules = v at *
  have ht : w.evaluateBoundary = { w with alarm := w.evaluateBoundary.alarm, port := w.evaluateBoundary.port } := by
    rw [hboundary, hframe]
  have htables' : w.evaluateBoundary.tables = s.tables := by rw [ht]; exact htables
  have hrules' (r : RuleId) : w.evaluateBoundary.alarm.rules[r] = w.ruleAfter r := by rw [hboundary]; exact hrules r
  have hdue' : w.evaluateBoundary.alarm.due = Safety.stillDue (allRules.filterMap w.dueAfter) := by rw [hboundary]
  have hport' : w.evaluateBoundary.port = Safety.returnsNoted w.evaluateBoundary s.port (allRules.filterMap w.dueAfter) := by
    have hv : v.port = s.port := by rw [hframe]; exact hport
    rw [returnsNoted_congr (s := v) (u := w.evaluateBoundary) (by rw [hboundary]) (by rw [hboundary]), ← hv, hboundary]
  generalize w.evaluateBoundary = t at *
  have hread := conditionHolds_congr ht
  have hvalue (e : RuleRecord) : w.noticeValue e = Safety.valueRead t e := (hread e).2.symm.trans (noticeValue_reads t e)
  refine ⟨t, allRules.filterMap w.dueAfter, hexec, hsorted, hdue', hport', fun d hd => ?_, fun r => ?_⟩
  · have hd := mem_evaluatedAll.1 hd
    unfold State.dueAfter at hd
    simp only at hd
    split at hd
    · obtain ⟨k, -, hk⟩ := Option.map_eq_some_iff.1 hd
      have hv := congrArg DueRule.value hk
      rw [← hv, htables]
      exact hvalue _
    · cases hd
  · intro e x y c p l runs holds rests dueTo
    have hholds : w.conditionHolds e = true ↔ holds := by
      rw [← (hread e).1]
      exact conditionHolds_iff t e
    have hafter : y = if e.enabled then evaluatedRule e (w.conditionHolds e) x else x := by
      refine (hrules' r).trans ?_
      unfold State.ruleAfter
      rw [htables, halarm]
    have hleft : w.dueAfter r = if e.enabled then
        (evaluatedDue e (w.conditionHolds e) x).map fun k => { rule := r, kind := k, value := Safety.valueRead t e } else none := by
      unfold State.dueAfter
      rw [htables, halarm, ← hvalue]
    obtain ⟨hnone, hsome⟩ := dueAfter_mem w r
    have hstands {b : Bool} {z : Rule} (hon : e.enabled = true) (hb : w.conditionHolds e = b)
        (h : evaluatedRule e b x = z ∧ evaluatedDue e b x = none) : y = z ∧ rests := by
      rw [hon, hb] at hafter hleft
      exact ⟨hafter.trans h.1, hnone (by rw [hleft, h.2]; rfl)⟩
    have hmoves {b : Bool} {z : Rule} {k : DueKind} (hon : e.enabled = true) (hb : w.conditionHolds e = b)
        (h : evaluatedRule e b x = z ∧ evaluatedDue e b x = some k) : y = z ∧ dueTo k := by
      rw [hon, hb] at hafter hleft
      exact ⟨hafter.trans h.1, hsome k _ (by rw [hleft, h.2]; rfl)⟩
    refine ⟨fun hoff => ?_, fun hon hh => ?_, fun hon hh => ?_⟩
    · rw [hoff] at hafter hleft
      exact ⟨hafter, hnone hleft⟩
    · have hb := hholds.2 hh
      obtain ⟨hquiet, hquiet', honset, honset', hactive, heasing, hheld⟩ := evaluated_holds e x
      exact ⟨fun h h' => hmoves hon hb (hquiet h h'), fun h h' => hstands hon hb (hquiet' h h'),
        fun h h' => hmoves hon hb (honset h h'), fun h h' => hstands hon hb (honset' h h'),
        fun h => hstands hon hb (hactive h), fun h => hstands hon hb (heasing h), fun h => hmoves hon hb (hheld h)⟩
    · have hb := Bool.eq_false_iff.2 fun h => hh (hholds.1 h)
      obtain ⟨hquiet, honset, hactive, hactive', heasing, heasing', hheld⟩ := evaluated_fails e x
      exact ⟨fun h => hstands hon hb (hquiet h), fun h => hstands hon hb (honset h),
        fun h h' => hmoves hon hb (hactive h h'), fun h h' => hstands hon hb (hactive' h h'),
        fun h h' => hmoves hon hb (heasing h h'), fun h h' => hstands hon hb (heasing' h h'),
        fun h => hstands hon hb (hheld h)⟩

end Sys2Proof.Machine
end

section
/-! PROOF. The take: O28. -/

namespace Sys2Proof.Machine

/-! ### The swap (R58, R75, R146, R147) -/

/-- Of the frame's marks a swap moves the selected sources alone. -/
theorem swap_frameMarks (s : State) : s.swap.frame = { s.frame with selected := s.swap.frame.selected } := by
  rw [swap_eq, swapLines_frame]
  unfold State.swapAnswered
  have hprog := (swapProgrammes_frame s.active (forChannels (State.swapSource s.active) (s.setTables (swapTables s.tables)))).1
  have hsource := (swapSources_frame s.active (s.setTables (swapTables s.tables))).1
  generalize forChannels (State.swapSource s.active) (s.setTables (swapTables s.tables)) = u at *
  generalize forProgs (State.swapProgramme s.active) u = v at *
  rw [hprog, hsource]
  rfl

theorem dtOf_eq (s : State) (c : ChannelId) : dtOf s.active c = (s.recordOf c).map (·.dt) := by
  unfold dtOf State.recordOf State.record
  cases programmeOf s.active c <;> rfl

theorem movesByCut_iff (s : State) (c : ChannelId) :
    movesByCut s.active c = true ↔ (s.recordOf c).map (·.moveMode) = some .cut := by
  unfold movesByCut State.recordOf State.record
  cases programmeOf s.active c with
  | none => exact iff_of_false Bool.false_ne_true nofun
  | some p =>
    simp only
    cases s.active.programmes[p] with
    | none => exact iff_of_false Bool.false_ne_true nofun
    | some r => exact beq_iff_eq.trans Option.some_inj.symm

theorem sameMembers_self (ms : List Member) : sameMembers ms ms = true := by
  simp [sameMembers]

/-- What a programme that stays present keeps through a swap (R94, R104, R106, R115). -/
theorem swapped_stays (o n : ProgRecord) (l : Loud) (g : Gain) :
    (swappedGain (some o) (some n) g).app = g.app ∧ (swappedGain (some o) (some n) g).fader = g.fader ∧
    (swappedGain (some o) (some n) g).reasons = g.reasons ∧ (swappedGain (some o) (some n) g).command = g.command ∧
    (o ≠ n → (swappedGain (some o) (some n) g).tgt = clampInt (-(n.cutMax : Int)) n.boostMax g.tgt) ∧
    (sameMembers o.members n.members = true → swappedLoud (some o) (some n) l = l ∧
      (swappedGain (some o) (some n) g).queue = g.queue) ∧
    (sameMembers o.members n.members = false → swappedLoud (some o) (some n) l = clearedLoud ∧
      (swappedGain (some o) (some n) g).queue = []) := by
  unfold swappedGain swappedLoud
  simp only
  by_cases heq : o = n
  · subst heq
    rw [if_pos rfl, if_pos (.inl rfl), sameMembers_self]
    exact ⟨rfl, rfl, rfl, rfl, fun h => absurd rfl h, fun _ => ⟨rfl, rfl⟩, nofun⟩
  · rw [if_neg heq]
    unfold swapGain
    cases hsame : sameMembers o.members n.members with
    | true => exact ⟨rfl, rfl, rfl, rfl, fun _ => rfl, fun _ => ⟨if_pos (.inr rfl), rfl⟩, nofun⟩
    | false =>
      exact ⟨rfl, rfl, rfl, rfl, fun _ => rfl, nofun, fun _ => ⟨if_neg fun h => h.elim heq Bool.false_ne_true, rfl⟩⟩

/-- How a line whose region stands answers a swap (R75). -/
theorem swap_line_answers {s t : State} (ht : t = s.swap) {c : ChannelId} (hregion : s.active.regions[c] = t.active.regions[c]) :
    let sourceChange := t.selectedOf c ≠ s.selectedOf c
    let joins := programmeOf t.active c ≠ programmeOf s.active c
    let delayChange := (t.recordOf c).map (·.dt) ≠ (s.recordOf c).map (·.dt)
    let mode := (t.recordOf c).map (·.moveMode)
    (sourceChange → Safety.CutAnswer t c s.lines[c] t.lines[c] true) ∧
    (¬ sourceChange → joins ∨ (delayChange ∧ mode = some .cut) → Safety.CutAnswer t c s.lines[c] t.lines[c] false) ∧
    (¬ sourceChange → ¬ joins → delayChange → mode = some .slew → Safety.SlewAnswer t c s.lines[c] t.lines[c]) ∧
    (¬ sourceChange → ¬ joins → ¬ delayChange → t.lines[c] = s.lines[c]) := by
  intro sourceChange joins delayChange mode
  have hline : t.lines[c] = swappedLine s.active s.selections t c s.lines[c] := by
    rw [ht]
    exact swap_line s c
  have hbefore : s.selections[c] = s.selectedOf c := by
    unfold State.selections
    exact Vector.getElem_ofFn c.isLt
  have hsource : (s.selections[c] != t.selectedOf c) = true ↔ sourceChange := by
    rw [hbefore, bne_iff_ne]
    exact ne_comm
  have hjoin : (programmeOf s.active c != programmeOf t.active c) = true ↔ joins := bne_iff_ne.trans ne_comm
  have hdelay : (dtOf s.active c != dtOf t.active c) = true ↔ delayChange := by
    rw [bne_iff_ne, dtOf_eq, dtOf_eq]
    exact ne_comm
  have hmode : movesByCut t.active c = true ↔ mode = some .cut := movesByCut_iff t c
  unfold swappedLine at hline
  rw [if_neg (not_not.2 hregion)] at hline
  have hany : ((s.selections[c] != t.selectedOf c) || (programmeOf s.active c != programmeOf t.active c) ||
      ((dtOf s.active c != dtOf t.active c) && movesByCut t.active c)) = true ↔
      sourceChange ∨ joins ∨ (delayChange ∧ mode = some .cut) := by
    rw [Bool.or_eq_true, Bool.or_eq_true, Bool.and_eq_true, hsource, hjoin, hdelay, hmode, or_assoc]
  refine ⟨fun h => ?_, fun hn h => ?_, fun hn hj hd hm => ?_, fun hn hj hd => ?_⟩
  · rw [if_pos (hany.2 (.inl h)), hsource.2 h] at hline
    rw [hline]
    exact cutClass_answers t c s.lines[c] true
  · rw [if_pos (hany.2 (.inr h)), Bool.eq_false_iff.2 fun e => hn (hsource.1 e)] at hline
    rw [hline]
    exact cutClass_answers t c s.lines[c] false
  · have hno : ¬ (sourceChange ∨ joins ∨ (delayChange ∧ mode = some .cut)) := by
      rintro (h | h | ⟨-, h⟩)
      · exact hn h
      · exact hj h
      · rw [hm] at h
        cases h
    rw [if_neg fun e => hno (hany.1 e), if_pos (hdelay.2 hd)] at hline
    rw [hline]
    exact slewClass_answers t c s.lines[c]
  · have hno : ¬ (sourceChange ∨ joins ∨ (delayChange ∧ mode = some .cut)) := by
      rintro (h | h | ⟨h, -⟩)
      · exact hn h
      · exact hj h
      · exact hd h
    rw [if_neg fun e => hno (hany.1 e), if_neg fun e => hd (hdelay.1 e)] at hline
    exact hline

theorem swapDue_iff {s : State} {i : Instant} (harmed : s.tables.bankState = .armed) (hi : s.tables.pendingInstant = some i) :
    s.swapDue = true ↔ (s.tb.hfc - i).toNat < 2147483648 := by
  unfold State.swapDue instantReached
  rw [harmed, hi]
  simp

/-! ### The 104th copy (R148) -/

/-- The 104th copy takes the last entry of REGIONS into the standby bank and raises the position, and nothing else (R148). -/
theorem copyNext_last {t : Tables} (hpos : t.copyPos = 103) :
    (copyNext t).copyPos = 104 ∧ activeBank (copyNext t) = activeBank t ∧
    standbyBank (copyNext t) = { standbyBank t with
      regions := (standbyBank t).regions.set 31 (activeBank t).regions[(31 : ChannelId)] } ∧
    (copyNext t).marker = t.marker ∧ (copyNext t).ruleRecords = t.ruleRecords ∧ (copyNext t).linkConfig = t.linkConfig ∧
    (copyNext t).filters = t.filters ∧ (copyNext t).setSelect = t.setSelect ∧ (copyNext t).weighting = t.weighting ∧
    (copyNext t).pendingInstant = t.pendingInstant := by
  have hentry : copyEntry t.copyPos (activeBank t) (standbyBank t) = { standbyBank t with
      regions := (standbyBank t).regions.set 31 (activeBank t).regions[(31 : ChannelId)] } := by
    rw [hpos]
    rfl
  unfold copyNext
  rw [hentry, hpos]
  generalize ({ standbyBank t with
    regions := (standbyBank t).regions.set 31 (activeBank t).regions[(31 : ChannelId)] } : Routing) = b
  refine ⟨rfl, activeBank_setStandbyBank t b, standbyBank_setStandbyBank t b, ?_⟩
  unfold setStandbyBank
  split <;> exact ⟨rfl, rfl, rfl, rfl, rfl, rfl, rfl⟩

/-- Settles O28: the swap with every block's answer, and the last copy (R58, R75, R94, R115, R145 to R148). -/
theorem takeSwapAndCopyBack : Obligations.TakeSwapAndCopyBack := by
  refine ⟨fun s i harmed hi hdue => ⟨fun hearly => ?_, fun hreached => ?_⟩, fun s => ⟨fun hcopying hpos hcopy => ?_, fun h => ?_⟩⟩
  · refine congrArg Host.Outcome.next (if_neg fun h => ?_)
    have := (swapDue_iff harmed hi).1 h
    omega
  · have hrun : s.takeSwap = s.swap := by
      unfold State.takeSwap
      rw [if_pos ((swapDue_iff harmed hi).2 hreached), settleAlarms_nil hdue]
    have hframe := swap_frame s
    refine ⟨s.swap, congrArg Host.Outcome.next hrun, swap_tables s, swap_active s, ?_, swap_sources s, fun c => ?_, swap_switched s,
      fun r p => ?_, fun c hne => ?_, fun c heq => swap_line_answers rfl heq, fun p n ho hn => ?_, fun p o n ho hn => ?_,
      fun p o ho hn => ?_, (swap_due s).trans hdue, fun r => ?_, by rw [hframe], by rw [hframe], by rw [hframe],
      by rw [hframe], by rw [hframe], by rw [hframe], swap_frameMarks s⟩
    · rw [swap_tables]
      exact standbyBank_swapTables s.tables
    · rw [swap_selected]
      by_cases heq : s.active.slotMap[c] = s.swap.active.slotMap[c]
      · rw [if_pos heq, if_pos heq]
      · rw [if_neg heq, if_neg heq]
        have hprimary := (swap_sources s c).trans (if_neg heq)
        unfold State.selectedOf
        rw [hprimary]
        rfl
    · rw [swap_muted]
      cases s.record p <;> cases s.swap.record p <;> simp [leaves]
    · rw [swap_line]
      unfold swappedLine
      rw [if_pos hne]
      exact (setLineNow_sets s.swap c s.lines[c]).2
    · rw [swap_loud, swap_gain, ho, hn]
      exact ⟨rfl, rfl, rfl, rfl, rfl, rfl, rfl, rfl, rfl⟩
    · rw [swap_loud, swap_gain, ho, hn]
      exact swapped_stays o n s.loud[p] s.gain[p]
    · rw [swap_loud, ho, hn]
      rfl
    · rw [swap_rule]
      exact ⟨rfl, rfl, rfl⟩
  · have hdue : s.copyEndDue = true := by
      unfold State.copyEndDue
      rw [hcopy, hcopying, hpos]
      rfl
    obtain ⟨hpos', hactive, hstandby, hmarker, hrules, hlink, hfilters, hselect, hweights, hinstant⟩ := copyNext_last hpos
    exact ⟨_, congrArg Host.Outcome.next (if_pos hdue), rfl, hpos', hactive, hstandby, hmarker, hrules, hlink, hfilters, hselect,
      hweights, hinstant, rfl⟩
  · refine congrArg Host.Outcome.next (if_neg fun hdue => ?_)
    unfold State.copyEndDue at hdue
    rw [Bool.and_eq_true, Bool.and_eq_true, beq_iff_eq, beq_iff_eq] at hdue
    obtain ⟨⟨hcopy, hcopying⟩, hpos⟩ := hdue
    rcases h with h | h | h
    · exact h hcopying
    · exact h hpos
    · rw [h] at hcopy
      cases hcopy

end Sys2Proof.Machine
end

section
/-! PROOF. The reset: O2 and O52. -/

namespace Sys2Proof.Machine

/-! ### FILTER_SETS at reset (R50) -/

/-- A phase of the linear interpolator holds its coefficients 11 and 12; a coefficient that is 0 is read past it. -/
theorem readCell_linearPhase_append (φ a : Nat) (rest : Cells Int) :
    readCell 0 (linearPhase φ ++ rest) a =
      if a = φ * 24 + 11 then 4096 * (64 - φ : Int)
      else if a = φ * 24 + 12 ∧ φ ≠ 0 then 4096 * (φ : Int) else readCell 0 rest a := by
  unfold linearPhase
  by_cases hφ : φ = 0
  · subst hφ
    simp [readCell]
  · by_cases h11 : a = φ * 24 + 11 <;> by_cases h12 : a = φ * 24 + 12 <;> simp [readCell, hφ, h11, h12]

/-- The phases of the linear interpolator read back: coefficient 11 falls with the phase, coefficient 12 rises with it,
and every other one is 0. -/
theorem readCell_linearPhases (phases : List Nat) (a : Nat) :
    readCell 0 (phases.flatMap linearPhase) a =
      if a / 24 ∈ phases ∧ a % 24 = 11 then 4096 * (64 - (a / 24 : Nat) : Int)
      else if a / 24 ∈ phases ∧ a % 24 = 12 then 4096 * ((a / 24 : Nat) : Int) else 0 := by
  induction phases with
  | nil => simp [readCell]
  | cons φ rest ih =>
    rw [List.flatMap_cons, readCell_linearPhase_append, ih]
    by_cases h11 : a = φ * 24 + 11
    · have hdiv : a / 24 = φ := by omega
      have hmod : a % 24 = 11 := by omega
      rw [hdiv, hmod]
      simp [h11]
    · by_cases h12 : a = φ * 24 + 12
      · have hdiv : a / 24 = φ := by omega
        have hmod : a % 24 = 12 := by omega
        rw [hdiv, hmod]
        by_cases hφ : φ = 0 <;> simp [h12, hφ]
      · by_cases hdiv : a / 24 = φ
        · have hmod : a % 24 ≠ 11 ∧ a % 24 ≠ 12 := by omega
          simp [h11, h12, hmod]
        · simp [h11, h12, hdiv]

theorem readCell_resetFilters (set : SetId) (φ : Fin 64) (k : Fin 24) :
    readCell 0 resetFilters (set.val * 1536 + φ.val * 24 + k.val) =
      if set = 0 ∧ k = 11 then 4096 * (64 - φ.val : Int)
      else if set = 0 ∧ k = 12 then 4096 * (φ.val : Int) else 0 := by
  have hset : set.val < 4 := set.isLt
  have hφ := φ.isLt
  have hk := k.isLt
  have hdiv : (set.val * 1536 + φ.val * 24 + k.val) / 24 = set.val * 64 + φ.val := by omega
  have hmod : (set.val * 1536 + φ.val * 24 + k.val) % 24 = k.val := by omega
  have hin : set.val * 64 + φ.val < 64 ↔ set = 0 := by rw [Fin.ext_iff]; change _ ↔ set.val = 0; omega
  have h11 : k.val = 11 ↔ k = 11 := by rw [Fin.ext_iff]; rfl
  have h12 : k.val = 12 ↔ k = 12 := by rw [Fin.ext_iff]; rfl
  rw [show resetFilters = (List.range 64).flatMap linearPhase from rfl, readCell_linearPhases, hdiv, hmod]
  simp only [List.mem_range, hin, h11, h12]
  by_cases h0 : set = 0
  · subst h0; simp
  · simp [h0]

/-! ### What stands after a reset, item by item -/

section Items
variable (cause : ResetCause) (rate96 : Bool) (addr : BitVec 6) (mlk : LinkId) (store : Cells Sample) (free : Nat)
  (pending : List Instr)

theorem resetState_rx (l : LinkId) :
    (resetState cause rate96 addr mlk store free pending).rx[l] = resetReceiver := Vector.getElem_replicate _

theorem resetState_cv (l : LinkId) :
    (resetState cause rate96 addr mlk store free pending).cv[l] = resetConv := Vector.getElem_replicate _

theorem resetState_source (c : ChannelId) :
    (resetState cause rate96 addr mlk store free pending).sources[c] = .primary := Vector.getElem_replicate _

theorem resetState_line (c : ChannelId) :
    (resetState cause rate96 addr mlk store free pending).lines[c] = resetLine := Vector.getElem_replicate _

theorem resetState_meas (c : ChannelId) :
    (resetState cause rate96 addr mlk store free pending).meas[c] = resetMeas := Vector.getElem_replicate _

theorem resetState_loud (p : ProgId) :
    (resetState cause rate96 addr mlk store free pending).loud[p] = clearedLoud := Vector.getElem_replicate _

theorem resetState_gain (p : ProgId) :
    (resetState cause rate96 addr mlk store free pending).gain[p] = freshGain := Vector.getElem_replicate _

theorem resetState_rule (r : RuleId) :
    (resetState cause rate96 addr mlk store free pending).alarm.rules[r] = quietRule := Vector.getElem_replicate _
end Items

theorem resetRouting_programme (p : ProgId) : resetRouting.programmes[p] = none := Vector.getElem_replicate _

theorem resetRouting_region (c : ChannelId) : resetRouting.regions[c] = none := Vector.getElem_replicate _

theorem resetRouting_slotMap (c : ChannelId) :
    resetRouting.slotMap[c] = { primary := none, backup := none, manual := false } := Vector.getElem_replicate _

theorem resetRouting_outputMap (i : Fin 32) : resetRouting.outputMap[i] = none := Vector.getElem_replicate _

theorem resetTables_linkConfig (l : LinkId) : resetTables.linkConfig[l] = { mode := .off, gp := 12, gi := 18 } :=
  Vector.getElem_replicate _

theorem resetTables_ruleRecord (r : RuleId) : resetTables.ruleRecords[r] = resetRuleRecord := Vector.getElem_replicate _

/-- Settles O2: the reset rules, block by block. -/
theorem hardwareResetState : Obligations.HardwareResetState := by
  intro s cause rate96 addr mlk
  refine ⟨resetState cause rate96 addr mlk s.store s.free s.pending, rfl, ?_⟩
  refine ⟨rfl, rfl, ?held, rfl, rfl, rfl, rfl, rfl, rfl, rfl, rfl, rfl, rfl, rfl, ?receivers, ?converters, rfl, rfl, rfl,
    rfl, rfl, resetRouting_programme, ?channels, ?lines, ?programmes, readCell_resetFilters, rfl, rfl, rfl, ?rules, rfl,
    rfl, rfl, rfl, rfl, rfl, rfl, rfl, rfl, rfl, rfl, rfl, rfl, rfl, rfl, rfl, rfl, rfl, rfl, rfl, rfl, rfl, rfl, rfl, rfl⟩
  case held => cases rate96 <;> rfl
  case receivers => intro l; rw [resetState_rx]; exact ⟨rfl, rfl, rfl, rfl, rfl, rfl⟩
  case converters =>
    intro l
    rw [resetState_cv]
    exact ⟨rfl, rfl, rfl, rfl, rfl, rfl, rfl, rfl, rfl, rfl, rfl, rfl, rfl, rfl, rfl, rfl, rfl, rfl, rfl, rfl,
      resetTables_linkConfig l⟩
  case channels =>
    exact fun c => ⟨resetRouting_slotMap c, resetRouting_outputMap c, resetRouting_region c, resetState_source ..⟩
  case lines =>
    intro c
    rw [resetState_line, resetState_meas]
    exact ⟨rfl, rfl, rfl, rfl, rfl, rfl, rfl, rfl, rfl, rfl, rfl, rfl, rfl⟩
  case programmes =>
    intro p
    rw [resetState_loud, resetState_gain]
    exact ⟨rfl, rfl, rfl, rfl, rfl, rfl, rfl, rfl, rfl, rfl⟩
  case rules =>
    intro r
    rw [resetState_rule]
    exact ⟨rfl, rfl, rfl, rfl, rfl, resetTables_ruleRecord r⟩

/-! ### The state after reset meets every invariant -/

theorem reset_record (p : ProgId) : State.reset.record p = none := resetRouting_programme p

theorem reset_present (p : ProgId) : State.reset.present p = false := by
  unfold State.present
  rw [reset_record]
  rfl

theorem bankSound_resetRouting : Safety.BankSound resetRouting :=
  ⟨fun _ p _ _ _ h _ _ _ => (nomatch (resetRouting_programme p).symm.trans h),
   fun c _ _ => by rw [resetRouting_region c]; rfl⟩

theorem membersInRange_resetRouting : Safety.MembersInRange resetRouting :=
  fun p _ h => nomatch (resetRouting_programme p).symm.trans h

theorem reset_rule (r : RuleId) : State.reset.alarm.rules[r] = quietRule := resetState_rule ..

theorem hasMember_zero {w : Nat} (i : Fin w) : hasMember (0#w) i = false := by
  simp [hasMember]

theorem linesInRegions_reset : Safety.LinesInRegions State.reset := by
  intro c
  rw [show State.reset.lines[c] = resetLine from resetState_line ..]
  exact ⟨Nat.zero_le _, Nat.zero_le _⟩

theorem sourcesSound_reset : Safety.SourcesSound State.reset := by
  refine ⟨fun c h => absurd (resetState_source ..) h, fun r c h => ?_, fun r q c h => ?_⟩ <;>
  · rw [reset_rule] at h
    exact absurd h (by rw [show quietRule.switched = 0#32 from rfl, hasMember_zero]; decide)

theorem reasonsSound_reset : Safety.ReasonsSound State.reset := by
  refine ⟨fun r p h => ?_, fun r p h => ?_, nofun, List.nodup_nil⟩
  · rw [reset_rule] at h
    exact absurd h (by rw [show quietRule.muted = 0#8 from rfl, hasMember_zero]; decide)
  · rw [reset_present] at h
    exact absurd h (by decide)

theorem storesCanonical_reset : Safety.StoresCanonical State.reset := ⟨rfl, by decide +kernel⟩

theorem measurementBounded_reset : Safety.MeasurementBounded State.reset := by
  refine ⟨by decide, fun c => ?_, fun p x h => ?_, membersInRange_resetRouting, membersInRange_resetRouting⟩
  · rw [show State.reset.meas[c] = resetMeas from resetState_meas ..]
    exact ⟨Nat.zero_le _, Nat.zero_le _⟩
  · rw [show State.reset.loud[p] = clearedLoud from resetState_loud ..] at h
    exact absurd h List.not_mem_nil

theorem integratorsBounded_reset : Safety.IntegratorsBounded State.reset := by
  intro p
  rw [show State.reset.loud[p] = clearedLoud from resetState_loud ..]
  exact ⟨Nat.zero_le _, Nat.zero_le _⟩

/-- Settles O52: no programme is present, no rule raised and nothing queued. -/
theorem resetStateIsSound : Obligations.ResetStateIsSound := by
  have hgain (p : ProgId) : State.reset.gain[p].queue = [] := by
    rw [show State.reset.gain[p] = freshGain from resetState_gain ..]; rfl
  refine ⟨?queues, fun p => ?gains, fun p _ h => ?limits, linesInRegions_reset, ⟨bankSound_resetRouting, nofun⟩,
    sourcesSound_reset, reasonsSound_reset, fun c _ h => ?fit, storesCanonical_reset, measurementBounded_reset,
    integratorsBounded_reset, rfl, rfl, rfl, rfl, rfl, rfl, fun c => resetState_source .., hgain, fun r => ?rules⟩
  case queues => exact ⟨Nat.zero_le _, Nat.zero_le _, Nat.zero_le _, Nat.zero_le _⟩
  case gains => rw [hgain]; exact Nat.zero_le _
  case limits => exact nomatch (reset_record p).symm.trans h
  case fit =>
    exact h.elim (fun h => nomatch (resetRouting_region c).symm.trans h)
      (fun h => nomatch (resetRouting_region c).symm.trans h)
  case rules => rw [reset_rule]; exact ⟨rfl, rfl⟩

end Sys2Proof.Machine
end

section
/-! PROOF. The delay store and its lines: O49. -/

namespace Sys2Proof.Machine

/-! ### What a line reads (R59, R60) -/

/-- The distance `d` behind the write pointer `w` in a ring of `n` words. -/
def behind (w d n : Nat) : Nat := (((w : Int) - d) % (n : Nat)).toNat

/-- A write pointer that has moved on by one lies one word farther from every word. -/
theorem behind_next {w d n : Nat} (hd : 1 ≤ d) : behind ((w + 1) % n) d n = behind w (d - 1) n := by
  unfold behind
  rw [Int.natCast_mod, Int.emod_sub_emod]
  congr 2
  omega

theorem behind_zero {w n : Nat} (hw : w < n) : behind w 0 n = w := by
  unfold behind
  rw [Int.emod_eq_of_lt (by omega) (by omega)]
  omega

/-- Within one turn of the ring only the distance 0 leads to the write pointer. -/
theorem behind_ne {w d n : Nat} (hw : w < n) (hd : 1 ≤ d) (hdn : d < n) : behind w d n ≠ w := by
  unfold behind
  by_cases hle : d ≤ w
  · rw [Int.emod_eq_of_lt (by omega) (by omega)]
    omega
  · rw [← Int.add_emod_right, Int.emod_eq_of_lt (by omega) (by omega)]
    omega

theorem readLine_eq (m : Cells Sample) (r : Region) (w v : Nat) (x : Sample) (d : Nat) :
    readLine m r w v x d = if d = 0 then x else if v ≤ d then 0#24
      else readCell 0#24 m (r.base * 1024 + behind w d (r.count * 1024)) := rfl

/-- The line has been fed the samples, oldest first, since its depth was set to 0: each lies as far behind the write pointer
as frames have passed, as far back as the region reaches. -/
def Fed (r : Region) (xs : List Sample) (a : Cells Sample × Line) : Prop :=
  cellsWf 0#24 a.1 = true ∧ a.2.wptr < r.count * 1024 ∧ a.2.v = min xs.length (r.count * 1024) ∧
  ∀ d : Nat, 1 ≤ d → d ≤ xs.length → d ≤ r.count * 1024 →
    readCell 0#24 a.1 (r.base * 1024 + behind a.2.wptr d (r.count * 1024)) = xs.getD (xs.length - d) 0#24

theorem fed_append {r : Region} {xs : List Sample} {a : Cells Sample × Line} (x : Sample) (h : Fed r xs a) :
    Fed r (xs ++ [x]) (writeLine a.1 (some r) a.2 x, accessLine (some r) a.2) := by
  obtain ⟨hwf, hw, hv, hread⟩ := h
  have hlen : (xs ++ [x]).length = xs.length + 1 := by rw [List.length_append, List.length_singleton]
  refine ⟨writeCell_wf _ _ _ hwf, Nat.mod_lt _ (by omega), ?_, fun d hd hdn hdr => ?_⟩
  · change (if a.2.v < r.count * 1024 then a.2.v + 1 else a.2.v) = _
    rw [hlen]
    split <;> omega
  · change readCell 0#24 (writeCell 0#24 a.1 (r.base * 1024 + a.2.wptr) x)
      (r.base * 1024 + behind ((a.2.wptr + 1) % (r.count * 1024)) d (r.count * 1024)) = _
    rw [readCell_writeCell hwf, behind_next hd, hlen]
    rw [hlen] at hdn
    by_cases hone : d = 1
    · subst hone
      rw [behind_zero hw, if_pos rfl, Nat.add_sub_cancel, List.getD_append_right _ _ _ _ (Nat.le_refl _), Nat.sub_self]
      rfl
    · have hne := behind_ne hw (show 1 ≤ d - 1 by omega) (show d - 1 < r.count * 1024 by omega)
      rw [if_neg (by omega), hread (d - 1) (by omega) (by omega) (by omega),
        List.getD_append _ _ _ _ (show xs.length + 1 - d < xs.length by omega)]
      congr 1
      omega

theorem fed_foldl {r : Region} : ∀ (ys xs : List Sample) (a : Cells Sample × Line), Fed r xs a →
    Fed r (xs ++ ys) (ys.foldl (fun a x => (writeLine a.1 (some r) a.2 x, accessLine (some r) a.2)) a)
  | [], xs, a, h => by rw [List.append_nil]; exact h
  | y :: ys, xs, a, h => by
    have := fed_foldl ys (xs ++ [y]) _ (fed_append y h)
    rwa [List.append_assoc] at this

/-- A fed line reads each distance back, and primes (R59, R60). -/
theorem readLine_of_fed {r : Region} {xs : List Sample} {a : Cells Sample × Line} (h : Fed r xs a) (y : Sample) {d : Nat}
    (hd : d < r.count * 1024) :
    readLine a.1 r a.2.wptr (countedDepth (some r) a.2.v) y d =
      if d = 0 then y else if d ≤ xs.length then xs.getD (xs.length - d) 0#24 else 0#24 := by
  obtain ⟨-, -, hv, hread⟩ := h
  have hdepth : countedDepth (some r) a.2.v = min (xs.length + 1) (r.count * 1024) := by
    change (if a.2.v < r.count * 1024 then a.2.v + 1 else a.2.v) = _
    split <;> omega
  rw [readLine_eq, hdepth]
  by_cases h0 : d = 0
  · rw [if_pos h0, if_pos h0]
  · rw [if_neg h0, if_neg h0]
    by_cases hle : d ≤ xs.length
    · rw [if_pos hle, if_neg (by omega), hread d (by omega) hle (by omega)]
    · rw [if_neg hle, if_pos (by omega)]

/-! ### The line output (R59, R64, R66) -/

theorem fade_eq (x : Sample) (g : Nat) : fade x g = BitVec.ofInt 24 ((2 * (x.toInt * g) + 64) / 128) := rfl

theorem fade_full (x : Sample) : fade x 64 = x := by
  rw [fade_eq, show (2 * (x.toInt * (64 : Nat)) + 64) / 128 = x.toInt by omega]
  exact BitVec.ofInt_toInt

/-- Settles O49: a cell reads what was last written, a line primes, and its output fades. -/
theorem delayStoreReadsWhatIsWritten : Obligations.DelayStoreReadsWhatIsWritten := by
  refine ⟨fun m a b x h => readCell_writeCell h a b x, ?primes, ?fades⟩
  case primes =>
    intro m r l xs y d hwf hw hv hd
    have hnone : Fed r [] (m, l) := ⟨hwf, hw, by rw [hv]; exact (Nat.zero_min _).symm, fun d h1 h0 => by
      rw [List.length_nil] at h0; omega⟩
    exact readLine_of_fed (fed_foldl xs [] (m, l) hnone) y hd
  case fades =>
    intro m region ⟨_, _, _, _, _, _, _, _, _, _, _, readAlso⟩ x
    refine ⟨?_, fun hg => ?_⟩
    · cases region <;> cases readAlso <;> rfl
    · unfold lineOutput
      rw [hg, fade_full]
      cases region <;> cases readAlso <;> rfl

end Sys2Proof.Machine
end

section
/-! PROOF. A house frame ends and the next begins: its laws item by item, and O3 and O29. -/

namespace Sys2Proof.Machine

/-! ### What a house frame that begins leaves (R3) -/

/-- The converters, lines and gain states of a house frame as it begins. -/
def State.openedItems (s : State) (b : Nat) : State :=
  forProgs State.beginProgramme (forChannels (fun s c => s.setLine c (beginLine s.lines[c]))
    (forLinks State.beginLink (s.setTb (beginFrame b s.tb))))

theorem openFrame_eq (s : State) (b : Nat) : s.openFrame b =
    ((s.openedItems b).latchFrame.setTables (copyBack (s.openedItems b).latchFrame.tables)).beginArbiter := rfl

/-- The state `t` differs from `s` in converters, lines and gain states alone. -/
def SameButItems (s t : State) : Prop := t = { s with cv := t.cv, lines := t.lines, gain := t.gain }

theorem sameButItems_beginLink {s t : State} (l : LinkId) (h : SameButItems s t) : SameButItems s (t.beginLink l) := by
  unfold SameButItems at *
  rw [show t.beginLink l = { t with cv := (t.beginLink l).cv } from rfl, h]

theorem sameButItems_beginLine {s t : State} (c : ChannelId) (h : SameButItems s t) :
    SameButItems s (t.setLine c (beginLine t.lines[c])) := by
  unfold SameButItems at *
  rw [show t.setLine c (beginLine t.lines[c]) = { t with lines := (t.setLine c (beginLine t.lines[c])).lines } from rfl, h]

theorem sameButItems_beginProgramme {s t : State} (p : ProgId) (h : SameButItems s t) :
    SameButItems s (t.beginProgramme p) := by
  have hframe : t.beginProgramme p = { t with gain := (t.beginProgramme p).gain } := by
    unfold State.beginProgramme
    split <;> rfl
  unfold SameButItems at *
  rw [hframe, h]

theorem sameButItems_begun (s : State) (u : State) (h : SameButItems s u) :
    SameButItems s (forProgs State.beginProgramme (forChannels (fun s c => s.setLine c (beginLine s.lines[c]))
      (forLinks State.beginLink u))) :=
  forProgs_keeps (fun _ p ht => sameButItems_beginProgramme p ht)
    (forChannels_keeps (fun _ c ht => sameButItems_beginLine c ht)
      (forLinks_keeps (fun _ l ht => sameButItems_beginLink l ht) h))

theorem openedItems_frame (s : State) (b : Nat) : SameButItems (s.setTb (beginFrame b s.tb)) (s.openedItems b) :=
  sameButItems_begun _ _ rfl

theorem beginArbiter_frame (s : State) : s.beginArbiter =
    { s with port := { s.port with flight := s.beginArbiter.port.flight },
             frame := { s.frame with arbiterTurn := s.beginArbiter.frame.arbiterTurn,
                                     service := s.beginArbiter.frame.service,
                                     serviceStart := s.beginArbiter.frame.serviceStart } } := by
  unfold State.beginArbiter
  split
  · rfl
  · split <;> rfl

/-- Of the state a house frame that begins moves the timebase, converters, lines, gain states, tables and its own marks. -/
theorem openFrame_frame (s : State) (b : Nat) : s.openFrame b =
    { s with tb := beginFrame b s.tb, cv := (s.openedItems b).cv, lines := (s.openedItems b).lines,
             gain := (s.openedItems b).gain, tables := copyBack s.tables, port := (s.openFrame b).port,
             frame := (s.openFrame b).frame } := by
  rw [openFrame_eq]
  have hitems := openedItems_frame s b
  generalize s.openedItems b = u at *
  have htables : copyBack u.latchFrame.tables = copyBack s.tables := by rw [hitems]; rfl
  rw [htables, beginArbiter_frame]
  generalize State.beginArbiter _ = v
  rw [hitems]
  rfl

theorem openFrame_cv (s : State) (b : Nat) (l : LinkId) : (s.openFrame b).cv[l] =
    beginConv s.tables.filters (s.modeOf l) (s.rx[l].state == .framed) s.tb.slice s.cv[l] := by
  obtain ⟨t, ht, hview, hitem⟩ := forLinks_item (view := fun (t : State) (l : LinkId) => t.cv[l])
    (P := SameButItems (s.setTb (beginFrame b s.tb))) (f := State.beginLink)
    (fun t i j h => State.setCv_get_ne t i j _ h) (fun _ l ht => sameButItems_beginLink l ht)
    (s := s.setTb (beginFrame b s.tb)) rfl l
  have hitems : (s.openedItems b).cv = (forLinks State.beginLink (s.setTb (beginFrame b s.tb))).cv :=
    (forProgs_same (view := State.cv) (fun t p => by unfold State.beginProgramme; split <;> rfl) _).trans
      (forChannels_same (view := State.cv) (fun t c => rfl) _)
  rw [show (s.openFrame b).cv = (s.openedItems b).cv by rw [openFrame_frame], hitems]
  unfold SameButItems at ht
  have htables : t.tables = s.tables := by rw [ht]; rfl
  have hrx : t.rx = s.rx := by rw [ht]; rfl
  have hslice : t.tb.slice = s.tb.slice := by rw [ht]; rfl
  have hcv : t.cv[l] = s.cv[l] := hview
  refine hitem.trans ((State.setCv_get_self t l _).trans ?_)
  rw [htables, hrx, hslice, hcv, show t.modeOf l = s.modeOf l from congrArg (fun u => u.linkConfig[l].mode) htables]

theorem openFrame_line (s : State) (b : Nat) (c : ChannelId) : (s.openFrame b).lines[c] = beginLine s.lines[c] := by
  have hlinks : (forLinks State.beginLink (s.setTb (beginFrame b s.tb))).lines = s.lines :=
    forLinks_same (view := State.lines) (fun _ _ => rfl) _
  obtain ⟨t, -, hview, hitem⟩ := forChannels_item (view := fun (t : State) (c : ChannelId) => t.lines[c])
    (P := fun _ => True) (f := fun s c => s.setLine c (beginLine s.lines[c]))
    (fun t i j h => State.setLine_get_ne t i j _ h) (fun _ _ _ => trivial)
    (s := forLinks State.beginLink (s.setTb (beginFrame b s.tb))) trivial c
  have hitems : (s.openedItems b).lines = (forChannels (fun s c => s.setLine c (beginLine s.lines[c]))
      (forLinks State.beginLink (s.setTb (beginFrame b s.tb)))).lines :=
    forProgs_same (view := State.lines) (fun t p => by unfold State.beginProgramme; split <;> rfl) _
  rw [show (s.openFrame b).lines = (s.openedItems b).lines by rw [openFrame_frame], hitems]
  have hline : t.lines[c] = s.lines[c] := by rw [← hlinks]; exact hview
  exact hitem.trans ((State.setLine_get_self t c _).trans (congrArg beginLine hline))

/-- The gain state of a programme as a house frame begins, by its record (R107, R111). -/
def begunGain (r : Option ProgRecord) (g : Gain) : Gain :=
  match r with
  | some r => beginGain r g
  | none => g

theorem beginProgramme_gain_self (s : State) (p : ProgId) :
    (s.beginProgramme p).gain[p] = begunGain (s.record p) s.gain[p] := by
  unfold State.beginProgramme begunGain
  cases s.record p with
  | none => rfl
  | some r => exact State.setGain_get_self ..

theorem beginProgramme_gain_ne (s : State) (p q : ProgId) (h : q ≠ p) : (s.beginProgramme p).gain[q] = s.gain[q] := by
  unfold State.beginProgramme
  split
  · exact State.setGain_get_ne _ _ _ _ h
  · rfl

theorem openFrame_gain (s : State) (b : Nat) (p : ProgId) :
    (s.openFrame b).gain[p] = begunGain (s.record p) s.gain[p] := by
  let u := forChannels (fun s c => s.setLine c (beginLine s.lines[c])) (forLinks State.beginLink (s.setTb (beginFrame b s.tb)))
  have hu : SameButItems (s.setTb (beginFrame b s.tb)) u :=
    forChannels_keeps (fun _ c ht => sameButItems_beginLine c ht)
      (forLinks_keeps (fun _ l ht => sameButItems_beginLink l ht) rfl)
  have hgain : u.gain = s.gain :=
    (forChannels_same (view := State.gain) (fun _ _ => rfl) _).trans (forLinks_same (view := State.gain) (fun _ _ => rfl) _)
  obtain ⟨t, ht, hview, hitem⟩ := forProgs_item (view := fun (t : State) (p : ProgId) => t.gain[p])
    (P := SameButItems (s.setTb (beginFrame b s.tb))) (f := State.beginProgramme)
    (fun t i j h => beginProgramme_gain_ne t i j h) (fun _ p ht => sameButItems_beginProgramme p ht) (s := u) hu p
  rw [show (s.openFrame b).gain = (s.openedItems b).gain by rw [openFrame_frame]]
  unfold SameButItems at ht
  have htables : t.tables = s.tables := by rw [ht]; rfl
  have hg : t.gain[p] = s.gain[p] := by rw [← hgain]; exact hview
  have hrecord : t.record p = s.record p := congrArg (fun u => (activeBank u).programmes[p]) htables
  exact hitem.trans ((beginProgramme_gain_self t p).trans (by rw [hrecord, hg]))

/-- What a house frame latches as it begins, beside the arbiter's bytes (R22, R135, R148, R158). -/
theorem openFrame_latches (s : State) (b : Nat) :
    (s.openFrame b).frame.selected = Vector.ofFn s.selectedOf ∧
    (s.openFrame b).frame.maj = s.lineDriven .major ∧ (s.openFrame b).frame.min = s.lineDriven .minor ∧
    (s.openFrame b).frame.ntc = s.lineDriven .notice ∧
    (s.openFrame b).frame.boundaryDue = (nextPhase s.tb == 0) ∧
    (s.openFrame b).frame.executorTurn = (s.port.holding.isSome || !s.port.commands.isEmpty) ∧
    (s.openFrame b).frame.copyDue = (s.tables.bankState == .copying && s.tables.copyPos == 103) := by
  have hitems := openedItems_frame s b
  rw [openFrame_eq, beginArbiter_frame]
  unfold SameButItems at hitems
  generalize s.openedItems b = u at *
  generalize State.beginArbiter _ = v
  rw [hitems]
  exact ⟨rfl, rfl, rfl, rfl, rfl, rfl, rfl⟩

/-- What the arbiter leaves of its port and its bytes as a frame begins (R160). -/
def arbiterView (s : State) : Port × Bool × List Byte × Bool :=
  (s.port, s.frame.arbiterTurn, s.frame.service, s.frame.serviceStart)

theorem openFrame_arbiter (s : State) (b : Nat) : arbiterView (s.openFrame b) =
    match s.port.flight with
    | none => (s.port, true, [], false)
    | some f =>
      if f.bytes.length ≤ f.sent then ({ s.port with flight := none }, true, [], false)
      else ({ s.port with flight := some { f with sent := min (f.sent + 2) f.bytes.length } }, false,
        (f.bytes.drop f.sent).take 2, false) := by
  have hitems := openedItems_frame s b
  rw [openFrame_eq]
  have hport : ((s.openedItems b).latchFrame.setTables (copyBack (s.openedItems b).latchFrame.tables)).port = s.port := by
    unfold SameButItems at hitems
    rw [hitems]; rfl
  generalize State.setTables _ _ = u at *
  unfold State.beginArbiter
  rw [hport]
  cases s.port.flight with
  | none => rw [← hport]; rfl
  | some f => by_cases h : f.bytes.length ≤ f.sent <;> simp only [h, if_true, if_false] <;> rfl


/-! ### A house frame completes -/

/-- A house frame at its placed boundary, by what the frame before it still owes (R3). -/
theorem exec_houseFrame {s : State} {b : Nat} (hb : (settleTimebase s.tb).boundary = some b) (h : Safety.RegionsFit s) :
    exec .houseFrame s = .next ((s.setTb (settleTimebase s.tb)).settleFrame.formAudio.openFrame b) := by
  have hfits : ((s.setTb (settleTimebase s.tb)).settleFrame).storeFits = true :=
    storeFits_of_regionsFit (regionsFit_kept.settleFrame (s := s.setTb (settleTimebase s.tb)) h)
  change s.houseFrame = _
  unfold State.houseFrame
  simp only [hb]
  rw [if_pos hfits]

/-- A house frame that owes nothing is its audio and the next frame's beginning. -/
theorem exec_houseFrame_settled {s : State} {b : Nat} (hb : s.tb.boundary = some b) (htb : settleTimebase s.tb = s.tb)
    (hs : s.settleFrame = s) (h : Safety.RegionsFit s) : exec .houseFrame s = .next (s.formAudio.openFrame b) := by
  rw [exec_houseFrame (s := s) (b := b) (by rw [htb]; exact hb) h, htb, show s.setTb s.tb = s from rfl, hs]

/-- The timebase but for its slice index and its reference-lost flag, which a house frame's steps can move. -/
def clockOf (t : Timebase) : Timebase := { t with slice := 0#32, lost := false }

/-- The steps that a frame owes keep the clock and the waiting commands. -/
theorem clock_kept (t : Timebase) (q : List Instr) : KeptByBlocks fun s => clockOf s.tb = t ∧ s.pending = q :=
  PlainKept.toBlocks {
    links := fun _ _ _ _ h => h
    lost := fun _ h => h
    port := fun _ _ _ h => h
    frame := fun _ _ _ h => h
    tables := fun _ _ _ h => h
    line := fun _ _ _ _ h => h
    source := fun _ _ _ h => h
    alarm := fun _ _ h => h
    gain := fun _ _ _ _ _ _ h => h
    loud := fun _ _ _ _ h => h
    clearMeasure := fun _ h => h
    roll := fun s _ h => by rw [rollRecords_frame]; exact h
    window := fun _ _ _ _ h => h
    swap := fun s _ h => by rw [swap_frame]; exact h }

theorem settleFrame_clock (s : State) : clockOf s.settleFrame.tb = clockOf s.tb ∧ s.settleFrame.pending = s.pending :=
  (clock_kept (clockOf s.tb) s.pending).settleFrame ⟨rfl, rfl⟩

theorem settleTimebase_hfc (t : Timebase) : (settleTimebase t).hfc = t.hfc := by
  have hgood : (goodCountComplete t).hfc = t.hfc := by unfold goodCountComplete; split <;> rfl
  have hrefine (u : Timebase) : (refinementComplete u).hfc = u.hfc := by unfold refinementComplete; split <;> rfl
  exact (hrefine _).trans hgood

/-- The timebase of the next house frame, from the clock as the frame before it ended (R2, R3). -/
theorem openFrame_clock (s : State) (b : Nat) : clockOf (s.openFrame b).tb = clockOf (beginFrame b (clockOf s.tb)) := by
  rw [openFrame_frame]
  rfl

theorem openFrame_links (s : State) (b : Nat) : (s.formAudio.openFrame b).h0 = s.formAudio.h0 ∧
    (s.formAudio.openFrame b).h1 = s.formAudio.h1 ∧ (s.formAudio.openFrame b).pending = s.pending := by
  refine ⟨by rw [openFrame_frame], by rw [openFrame_frame], ?_⟩
  rw [openFrame_frame, formAudio_frame]

theorem formAudio_h0 (s : State) : s.formAudio.h0 =
    buildFrame (s.outSlots (Vector.ofFn s.channelOutput) 0) s.frame.service s.frame.serviceStart s.frame.maj s.frame.min
      s.frame.ntc := rfl

theorem formAudio_h1 (s : State) : s.formAudio.h1 =
    buildFrame (s.outSlots (Vector.ofFn s.channelOutput) 16) [] false s.frame.maj s.frame.min s.frame.ntc := rfl

/-! ### O3: the frame and its timebase (R2, R3) -/

/-- The clock of a house frame that has begun at `b` over the clock `t` of the frame before (R2, R3). -/
theorem beginFrame_clock (b : Nat) (t : Timebase) (u : Timebase) (h : clockOf u = clockOf (beginFrame b (clockOf t))) :
    u.hfc = t.hfc + 1#32 ∧ u.frameStart = b ∧ u.rate96 = t.rate96 ∧
    u.phase = (if t.phase < sliceLength t.rate96 - 1 then t.phase + 1 else 0) ∧
    (u.ref ≠ .locked → u.boundary = some (b + u.held + t.remainder - (b + u.held + t.remainder) % 256) ∧
      u.remainder = (b + u.held + t.remainder) % 256) ∧
    (u.ref = .locked → u.boundary = none) := by
  have e {α : Type} (f : Timebase → α) : f (clockOf u) = f (beginFrame b (clockOf t)) := congrArg f h
  have hheld : u.held = t.held := e Timebase.held
  have href : u.ref = t.ref := e Timebase.ref
  have hboundary : u.boundary = if t.ref = .locked then none else
      some (b + t.held + t.remainder - (b + t.held + t.remainder) % 256) := e Timebase.boundary
  have hremainder : u.remainder = if t.ref = .locked then t.remainder else (b + t.held + t.remainder) % 256 :=
    e Timebase.remainder
  refine ⟨e Timebase.hfc, e Timebase.frameStart, e Timebase.rate96, e Timebase.phase, fun hne => ?_, fun he => ?_⟩
  · rw [href] at hne
    rw [hboundary, hremainder, if_neg hne, if_neg hne, hheld]
    exact ⟨rfl, rfl⟩
  · rw [hboundary, if_pos (href.symm.trans he)]

/-- An outbound frame carries the alignment word, even parity and the marks of its bytes (R30, R184). -/
theorem buildFrame_marks (slots : List SlotCell) (service : List Byte) (start maj min ntc : Bool) :
    (buildFrame slots service start maj min ntc).align = alignmentWord ∧
    evenParity (buildFrame slots service start maj min ntc) = true ∧
    (buildFrame slots service start maj min ntc).start = (start && !service.isEmpty) ∧
    (buildFrame slots service start maj min ntc).present0 = !service.isEmpty ∧
    (buildFrame slots service start maj min ntc).present1 = decide (2 ≤ service.length) ∧
    (buildFrame slots service start maj min ntc).byte0 = service.getD 0 0#8 ∧
    (buildFrame slots service start maj min ntc).byte1 = service.getD 1 0#8 := by
  unfold buildFrame
  exact ⟨rfl, evenParity_setParity _, rfl, rfl, rfl, rfl, rfl⟩

/-- The arbiter moves of the port only the message in flight as a frame begins (R160). -/
theorem openFrame_port (s : State) (b : Nat) : ∃ f : Option Flight, (s.openFrame b).port = { s.port with flight := f } := by
  have hitems := openedItems_frame s b
  rw [openFrame_eq, beginArbiter_frame]
  unfold SameButItems at hitems
  generalize s.openedItems b = u at *
  generalize State.beginArbiter _ = v
  rw [hitems]
  exact ⟨_, rfl⟩

/-- A region of the active bank beyond the store stops the test with which a house frame begins its accesses. -/
theorem storeFits_false {s : State} {c : ChannelId} {r : Region} (h : s.regionOf c = some r) (hr : 1024 < r.base + r.count) :
    s.storeFits = false := by
  unfold State.storeFits allChannels
  rw [List.all_eq_false]
  refine ⟨c, List.mem_finRange c, ?_⟩
  rw [h]
  exact Bool.not_eq_true _ ▸ decide_eq_false (by omega)

/-- Settles O3: the clock of the next frame is that of the last, moved on at its placed boundary. -/
theorem houseFrameStarts : Obligations.HouseFrameStarts := by
  refine ⟨fun s b hb hfit => ?starts, fun s b c r hb hr hout => ?stops⟩
  case starts =>
    obtain ⟨hclock, hpending⟩ := settleFrame_clock (s.setTb (settleTimebase s.tb))
    have hexec := exec_houseFrame hb hfit
    generalize (s.setTb (settleTimebase s.tb)).settleFrame = u at *
    obtain ⟨hphase, hrate⟩ := samePhase_settleTimebase s.tb
    have hhfc := settleTimebase_hfc s.tb
    obtain ⟨hh0, hh1, hq⟩ := openFrame_links u b
    have hnext : clockOf (u.formAudio.openFrame b).tb = clockOf (beginFrame b (clockOf (settleTimebase s.tb))) := by
      rw [openFrame_clock, show u.formAudio.tb = u.tb by rw [formAudio_frame], hclock]
      rfl
    obtain ⟨hhfc', hstart, hrate', hphase', hplaced, hnone⟩ := beginFrame_clock b _ _ hnext
    have hbegun : (u.formAudio.openFrame b).tb = beginFrame b u.formAudio.tb := by rw [openFrame_frame]
    obtain ⟨-, -, -, -, hdue, hturn, -⟩ := openFrame_latches u.formAudio b
    obtain ⟨f, hport⟩ := openFrame_port u.formAudio b
    obtain ⟨halign, hparity, -⟩ := buildFrame_marks (u.outSlots (Vector.ofFn u.channelOutput) 0) u.frame.service
      u.frame.serviceStart u.frame.maj u.frame.min u.frame.ntc
    obtain ⟨halign', hparity', hstart', hp0, hp1, hb0, hb1⟩ := buildFrame_marks
      (u.outSlots (Vector.ofFn u.channelOutput) 16) [] false u.frame.maj u.frame.min u.frame.ntc
    refine ⟨u.formAudio.openFrame b, hexec, ?_, hstart, ?_, ?_, ?_, ?_, hplaced, hnone, ?_⟩
    · rw [hhfc', hhfc]
    · rw [hrate', hrate]
    · rw [hphase', hphase, hrate]
    · rw [hdue, hbegun, show (beginFrame b u.formAudio.tb).phase = nextPhase u.formAudio.tb from rfl]
    · rw [hturn, hport]
    · rw [hh0, hh1, hq, formAudio_h0, formAudio_h1]
      exact ⟨halign, halign', hparity, hparity', hstart', hp0, hp1, hb0, hb1, hpending⟩
  case stops =>
    change s.houseFrame = _
    unfold State.houseFrame
    simp only [hb]
    rw [storeFits_false hr hout]
    rfl

/-! ### O29: the arbiter's turns and the bytes of a frame (R160) -/

theorem messageBoundary_idle {s : State} (hturn : s.frame.arbiterTurn = true) (hflight : s.port.flight = none)
    (h : s.port.serve (servingOrder s.port.lastServed) = none) :
    s.messageBoundary = s.setFrame { s.frame with arbiterTurn := false, service := [], serviceStart := false } := by
  unfold State.messageBoundary State.boundaryTurn
  rw [hturn, hflight]
  simp only [h]
  rfl

theorem messageBoundary_serves {s : State} {bs : List Byte} {p : Port} (hturn : s.frame.arbiterTurn = true)
    (hflight : s.port.flight = none) (h : s.port.serve (servingOrder s.port.lastServed) = some (bs, p)) :
    s.messageBoundary =
      { s with port := { p with flight := some { bytes := bs, sent := min 2 bs.length } },
               frame := { s.frame with arbiterTurn := false, service := bs.take 2, serviceStart := true } } := by
  unfold State.messageBoundary State.boundaryTurn
  rw [hturn, hflight]
  simp only [h]
  rfl

theorem messageBoundary_inFlight {s : State} {f : Flight} (h : s.port.flight = some f) : s.messageBoundary = s := by
  unfold State.messageBoundary State.boundaryTurn
  rw [h, show (some f).isNone = false from rfl, Bool.and_false]
  rfl

theorem serve_empty (p : Port) (last : Served) (h : p.relay = [] ∧ p.replies = [] ∧ p.notices = []) :
    p.serve (servingOrder last) = none := by
  obtain ⟨hrelay, hreplies, hnotices⟩ := h
  cases last <;> simp [servingOrder, Port.serve, Port.takeHead, hrelay, hreplies, hnotices]

/-- The queues before the one whose turn has come are empty: it is the first of the order that is not (R160). -/
theorem serve_relay {p : Port} {m : List Byte} {rest : List (List Byte)} (h : p.relay = m :: rest)
    (hlast : p.lastServed = .notice ∨ (p.lastServed = .reply ∧ p.notices = []) ∨
      (p.lastServed = .relay ∧ p.replies = [] ∧ p.notices = [])) :
    p.serve (servingOrder p.lastServed) = some (m, { p with relay := rest, lastServed := .relay }) := by
  rcases hlast with hl | ⟨hl, hn⟩ | ⟨hl, hr, hn⟩ <;> simp [servingOrder, Port.serve, Port.takeHead, *]

theorem serve_reply {p : Port} {m : Message} {rest : List Message} (h : p.replies = m :: rest)
    (hlast : p.lastServed = .relay ∨ (p.lastServed = .notice ∧ p.relay = []) ∨
      (p.lastServed = .reply ∧ p.notices = [] ∧ p.relay = [])) :
    p.serve (servingOrder p.lastServed) = some (messageBytes m, { p with replies := rest, lastServed := .reply }) := by
  rcases hlast with hl | ⟨hl, hr⟩ | ⟨hl, hn, hr⟩ <;> simp [servingOrder, Port.serve, Port.takeHead, *]

theorem serve_notice {p : Port} {n : Notice} {rest : List Notice} (h : p.notices = n :: rest)
    (hlast : p.lastServed = .reply ∨ (p.lastServed = .relay ∧ p.replies = []) ∨
      (p.lastServed = .notice ∧ p.relay = [] ∧ p.replies = [])) :
    p.serve (servingOrder p.lastServed) =
      some (messageBytes (noticeMessage p.addr n), { p with notices := rest, lastServed := .notice }) := by
  rcases hlast with hl | ⟨hl, hr⟩ | ⟨hl, hrel, hrep⟩ <;> simp [servingOrder, Port.serve, Port.takeHead, *]

theorem noticeMessage_length (addr : BitVec 6) (n : Notice) : (messageBytes (noticeMessage addr n)).length = 17 := by
  rw [messageBytes_eq]
  simp [noticeMessage, noticePayload, beSigned, beBytes_length]

/-- The bytes of a frame that begins, from the message in flight (R160). -/
theorem openFrame_flight (s : State) (b : Nat) :
    (∀ f : Flight, s.port.flight = some f → f.sent < f.bytes.length →
      (s.openFrame b).frame.service = (f.bytes.drop f.sent).take 2 ∧ (s.openFrame b).frame.serviceStart = false ∧
      (s.openFrame b).frame.arbiterTurn = false ∧
      (s.openFrame b).port = { s.port with flight := some { bytes := f.bytes, sent := min (f.sent + 2) f.bytes.length } }) ∧
    (∀ f : Flight, s.port.flight = some f → f.bytes.length ≤ f.sent →
      (s.openFrame b).frame.service = [] ∧ (s.openFrame b).frame.serviceStart = false ∧
      (s.openFrame b).frame.arbiterTurn = true ∧ (s.openFrame b).port = { s.port with flight := none }) ∧
    (s.port.flight = none →
      (s.openFrame b).frame.service = [] ∧ (s.openFrame b).frame.serviceStart = false ∧
      (s.openFrame b).frame.arbiterTurn = true ∧ (s.openFrame b).port = s.port) := by
  have hview := openFrame_arbiter s b
  simp only [arbiterView] at hview
  generalize s.openFrame b = t at *
  refine ⟨fun f hf hsent => ?_, fun f hf hsent => ?_, fun hf => ?_⟩
  · rw [hf] at hview
    simp only [if_neg (Nat.not_le.2 hsent), Prod.mk.injEq] at hview
    obtain ⟨hport, hturn, hservice, hstart⟩ := hview
    exact ⟨hservice, hstart, hturn, hport⟩
  · rw [hf] at hview
    simp only [if_pos hsent, Prod.mk.injEq] at hview
    obtain ⟨hport, hturn, hservice, hstart⟩ := hview
    exact ⟨hservice, hstart, hturn, hport⟩
  · rw [hf] at hview
    simp only [Prod.mk.injEq] at hview
    obtain ⟨hport, hturn, hservice, hstart⟩ := hview
    exact ⟨hservice, hstart, hturn, hport⟩

/-- Settles O29: the arbiter's order, and two bytes of the message in flight in each frame. -/
theorem messageBoundaryRoundRobin : Obligations.MessageBoundaryRoundRobin := by
  refine fun s => ⟨fun hturn hflight => ⟨fun hempty => ?_, fun m rest hm hlast => ?_, fun m rest hm hlast => ?_,
    fun n rest hn hlast => ?_⟩, fun f hf => ?_, fun b hb htb hs hfit => ?frame⟩
  · exact congrArg Host.Outcome.next (messageBoundary_idle hturn hflight (serve_empty _ _ hempty))
  · exact congrArg Host.Outcome.next (messageBoundary_serves hturn hflight (serve_relay hm hlast))
  · exact congrArg Host.Outcome.next (messageBoundary_serves hturn hflight (serve_reply hm hlast))
  · refine ⟨noticeMessage_length s.port.addr n, ?_⟩
    have h := messageBoundary_serves hturn hflight (serve_notice hn hlast)
    rw [noticeMessage_length] at h
    exact congrArg Host.Outcome.next h
  · exact congrArg Host.Outcome.next (messageBoundary_inFlight hf)
  case frame =>
    obtain ⟨hh0, -, -⟩ := openFrame_links s b
    obtain ⟨hsend, hover, hnone⟩ := openFrame_flight s.formAudio b
    obtain ⟨-, -, hstart, hp0, hp1, hb0, hb1⟩ := buildFrame_marks (s.outSlots (Vector.ofFn s.channelOutput) 0)
      s.frame.service s.frame.serviceStart s.frame.maj s.frame.min s.frame.ntc
    have hport : s.formAudio.port = s.port := formAudio_port s
    rw [hport] at hsend hover hnone
    refine ⟨s.formAudio.openFrame b, exec_houseFrame_settled hb htb hs hfit, ?_⟩
    rw [hh0, formAudio_h0]
    exact ⟨hp0, hb0, hp1, hb1, hstart, hsend, hover, hnone⟩

end Sys2Proof.Machine
end

section
/-! PROOF. A converter's house frame: O22. -/

namespace Sys2Proof.Machine

/-! ### The advance of a frame, and its fill (R37, R42, R44) -/

/-- The converter as a house frame begins, with the window counted down and no mark set (R45). -/
def countedDown (c : Conv) : Conv := { c with window := c.window - 1, leaveDue := false, jumpDue := false }

/-- The converter with its read position advanced by one frame to `i` and `j`, and the fill `F` there. -/
def advanced (c : Conv) (i : BitVec 32) (j : BitVec 24) (F : Int) : Conv :=
  { c with rInt := i, rFrac := j, fill := F, window := c.window - 1, leaveDue := false, jumpDue := false }

/-- The advanced converter re-placed by an extreme fill (R44). -/
def replaced (mode : LinkMode) (c : Conv) (F : Int) : Conv :=
  { c with rInt := c.w - (if mode = .direct then 4#32 else 32#32), rFrac := 0#24, fill := F, window := c.window - 1,
           leaveDue := false, jumpDue := false, qApplied := c.qInt, jumped := true }

/-- A house frame advances the converter to the position `i` and `j`, and the fill is `F` there. -/
def Advances (mode : LinkMode) (c : Conv) (i : BitVec 32) (j : BitVec 24) (F : Int) : Prop :=
  advance mode (countedDown c) = { countedDown c with rInt := i, rFrac := j } ∧ (c.w - i).toInt = F

theorem advanceBy_eq (c : Conv) (q n : Nat) (h : n = c.rInt.toNat * 16777216 + c.rFrac.toNat + q) :
    advanceBy c q = { c with rInt := BitVec.ofNat 32 (n / 16777216), rFrac := BitVec.ofNat 24 n } := by
  rw [h]; rfl

theorem advances_position (mode : LinkMode) (c : Conv) (n : Nat)
    (h : n = c.rInt.toNat * 16777216 + c.rFrac.toNat + if mode = .direct then 16777216 else c.qApplied) :
    Advances mode c (BitVec.ofNat 32 (n / 16777216)) (BitVec.ofNat 24 n)
      (c.w - BitVec.ofNat 32 (n / 16777216)).toInt := by
  have hposition : n = (countedDown c).rInt.toNat * 16777216 + (countedDown c).rFrac.toNat +
      if mode = .direct then ratioOne else (countedDown c).qApplied := h
  refine ⟨?_, rfl⟩
  cases mode <;> exact advanceBy_eq _ _ _ hposition

theorem Advances.filled {mode : LinkMode} {c : Conv} {i : BitVec 32} {j : BitVec 24} {F : Int} (h : Advances mode c i j F) :
    fillOf (advance mode (countedDown c)) = F := by
  rw [h.1]; exact h.2

theorem validFill_iff (mode : LinkMode) (x : Int) :
    validFill mode x = true ↔ if mode = .direct then 2 ≤ x ∧ x ≤ 12 else 14 ≤ x ∧ x ≤ 50 := by
  cases mode <;> exact decide_eq_true_iff

theorem extremeFill_iff (mode : LinkMode) (x : Int) :
    extremeFill mode x = true ↔ if mode = .direct then x < 1 ∨ 64 < x else x < 13 ∨ 53 < x := by
  cases mode <;> exact decide_eq_true_iff

theorem extremeTest_stands {mode : LinkMode} {x : Int} {c : Conv} (h : c.jumped = true ∨ ¬ extremeFill mode x = true) :
    extremeTest mode x c = c := by
  unfold extremeTest
  rw [if_neg]
  rw [Bool.and_eq_true, Bool.not_eq_true']
  rintro ⟨hj, hx⟩
  rcases h with h | h
  · rw [hj] at h; exact absurd h (by decide)
  · exact h hx

theorem extremeTest_jumps {mode : LinkMode} {x : Int} {c : Conv} (hj : c.jumped = false)
    (hx : extremeFill mode x = true) :
    extremeTest mode x c = { c with rInt := c.w - (if mode = .direct then 4#32 else 32#32), rFrac := 0#24,
                                    qApplied := c.qInt, jumped := true, g := 0 } := by
  unfold extremeTest
  rw [hj, hx]
  cases mode <;> rfl

/-! ### The outputs of a frame (R38, R39) -/

/-- The outputs of the converter `y` sent at the fader `g`. -/
def sentAt (f : Cells Int) (mode : LinkMode) (y : Conv) (g : Nat) : SixteenSamples :=
  (Vector.ofFn fun slot => slotValue f mode y slot).map fun x => fade (saturate24 x) g

/-- The saturation count after the outputs of the converter `y`. -/
def countedAt (f : Cells Int) (mode : LinkMode) (y : Conv) : Nat :=
  min 65535 (y.saturations + ((Vector.ofFn fun slot => slotValue f mode y slot).toList.filter outside24).length)

/-- Two converters that read the same samples through the same set at the same position. -/
def ReadsAlike (y z : Conv) : Prop :=
  y.ring = z.ring ∧ y.rInt = z.rInt ∧ y.rFrac = z.rFrac ∧ y.filter = z.filter ∧ y.saturations = z.saturations

theorem slotValue_readsAlike {y z : Conv} (h : ReadsAlike y z) (f : Cells Int) (mode : LinkMode) (slot : SlotId) :
    slotValue f mode y slot = slotValue f mode z slot := by
  obtain ⟨hring, hint, hfrac, hfilter, -⟩ := h
  have hsample (k : Int) : ringSample y slot k = ringSample z slot k := by simp only [ringSample, hring, hint]
  have hinterpolated (set : SetId) : interpolate f set y slot = interpolate f set z slot := by
    simp only [interpolate, tapTerm, hsample, hfrac]
  unfold slotValue
  rw [hfilter]
  simp only [hsample, hinterpolated]

/-- A converter sends what any other one sends that reads alike. -/
theorem produce_like {y z : Conv} (h : ReadsAlike y z) (f : Cells Int) (mode : LinkMode) :
    produce f mode y = { y with last := sentAt f mode z y.g, saturations := countedAt f mode z } := by
  have hvalues : (fun slot => slotValue f mode y slot) = fun slot => slotValue f mode z slot :=
    funext (slotValue_readsAlike h f mode)
  obtain ⟨-, -, -, -, hsaturations⟩ := h
  rw [produce_eq, hvalues, hsaturations, sentAt, countedAt]

/-! ### A frame by the state it began in -/

section Frames
variable {f : Cells Int} {mode : LinkMode} {slice : BitVec 32} {c : Conv} {i : BitVec 32} {j : BitVec 24} {F : Int}

theorem lockedFrame_valid (hadv : Advances mode c i j F) (h : validFill mode F = true) :
    lockedFrame f mode slice (countedDown c) =
      { advanced c i j F with
        last := sentAt f mode (advanced c i j F) c.g, saturations := countedAt f mode (advanced c i j F),
        track := if mode = .direct then c.track else c.track + 1 } := by
  unfold lockedFrame
  simp only
  rw [hadv.filled, hadv.1, if_pos h, produce_like (z := advanced c i j F)]
  · split <;> rfl
  · exact ⟨rfl, rfl, rfl, rfl, rfl⟩

theorem lockedFrame_reacquires (hadv : Advances mode c i j F) (h : ¬ validFill mode F = true) (hw : 1 < c.window) :
    lockedFrame f mode slice (countedDown c) = secondSlip slice (advanced c i j F) := by
  unfold lockedFrame
  simp only
  rw [hadv.filled, hadv.1, if_neg h]
  exact if_neg (show ¬ c.window - 1 = 0 by omega)

theorem lockedFrame_splices (hadv : Advances mode c i j F) (h : ¬ validFill mode F = true) (hw : c.window ≤ 1) :
    lockedFrame f mode slice (countedDown c) = startSplice f mode F (advanced c i j F) := by
  unfold lockedFrame
  simp only
  rw [hadv.filled, hadv.1, if_neg h]
  exact if_pos (show c.window - 1 = 0 by omega)

theorem startSplice_stands (h : ¬ extremeFill mode F = true) :
    startSplice f mode F (advanced c i j F) =
      { advanced c i j F with
        state := .splicing, splice := .fall, spliceCount := 1, jumped := false, g := 63,
        last := sentAt f mode (advanced c i j F) 63, saturations := countedAt f mode (advanced c i j F) } := by
  unfold startSplice
  rw [extremeTest_stands (.inr h), produce_like (z := advanced c i j F)]
  exact ⟨rfl, rfl, rfl, rfl, rfl⟩

theorem startSplice_jumps (h : extremeFill mode F = true) :
    startSplice f mode F (advanced c i j F) =
      { replaced mode c F with
        state := .splicing, splice := .fall, spliceCount := 1, g := 0,
        last := sentAt f mode (replaced mode c F) 0, saturations := countedAt f mode (replaced mode c F) } := by
  unfold startSplice
  rw [extremeTest_jumps rfl h, produce_like (z := replaced mode c F)]
  · rfl
  · exact ⟨rfl, rfl, rfl, rfl, rfl⟩

theorem splicingFrame_falls (hadv : Advances mode c i j F) (hs : c.splice = .fall) (hk : c.spliceCount < 64)
    (h : c.jumped = true ∨ ¬ extremeFill mode F = true) :
    splicingFrame f mode (countedDown c) =
      { advanced c i j F with
        spliceCount := c.spliceCount + 1, g := if c.jumped then 0 else 64 - (c.spliceCount + 1),
        last := sentAt f mode (advanced c i j F) (if c.jumped then 0 else 64 - (c.spliceCount + 1)),
        saturations := countedAt f mode (advanced c i j F) } := by
  unfold splicingFrame
  simp only [show (countedDown c).splice = .fall from hs]
  rw [if_pos (show (countedDown c).spliceCount < 64 from hk), hadv.filled, hadv.1, extremeTest_stands,
    produce_like (z := advanced c i j F)]
  · rfl
  · exact ⟨rfl, rfl, rfl, rfl, rfl⟩
  · exact h

theorem splicingFrame_jumps (hadv : Advances mode c i j F) (hs : c.splice = .fall) (hk : c.spliceCount < 64)
    (hj : c.jumped = false) (h : extremeFill mode F = true) :
    splicingFrame f mode (countedDown c) =
      { replaced mode c F with
        spliceCount := c.spliceCount + 1, g := 0, last := sentAt f mode (replaced mode c F) 0,
        saturations := countedAt f mode (replaced mode c F) } := by
  unfold splicingFrame
  simp only [show (countedDown c).splice = .fall from hs]
  rw [if_pos (show (countedDown c).spliceCount < 64 from hk), hadv.filled, hadv.1, extremeTest_jumps,
    produce_like (z := replaced mode c F)]
  · rfl
  · exact ⟨rfl, rfl, rfl, rfl, rfl⟩
  · exact hj
  · exact h

theorem splicingFrame_turns (hadv : Advances mode c i j F) (hs : c.splice = .fall) (hk : 64 ≤ c.spliceCount)
    (hj : c.jumped = true) :
    splicingFrame f mode (countedDown c) =
      { advanced c i j F with
        splice := .rise, spliceCount := 1, g := 1, last := sentAt f mode (advanced c i j F) 1,
        saturations := countedAt f mode (advanced c i j F) } := by
  unfold splicingFrame
  simp only [show (countedDown c).splice = .fall from hs]
  rw [if_neg (show ¬ (countedDown c).spliceCount < 64 from Nat.not_lt.2 hk),
    if_pos (show (countedDown c).jumped = true from hj), hadv.filled, hadv.1,
    produce_like (z := advanced c i j F)]
  · rfl
  · exact ⟨rfl, rfl, rfl, rfl, rfl⟩

theorem splicingFrame_waits (hs : c.splice = .fall) (hk : 64 ≤ c.spliceCount) (hj : c.jumped = false) :
    splicingFrame f mode (countedDown c) = { countedDown c with jumpDue := true } := by
  unfold splicingFrame
  split
  · rw [if_neg (show ¬ (countedDown c).spliceCount < 64 from Nat.not_lt.2 hk),
      if_neg (show ¬ (countedDown c).jumped = true from Bool.eq_false_iff.1 hj)]
  · next hrise => exact absurd (hs.symm.trans hrise) (by decide)

theorem splicingFrame_rises (hadv : Advances mode c i j F) (hs : c.splice = .rise) :
    splicingFrame f mode (countedDown c) =
      { advanced c i j F with
        spliceCount := min 64 (c.spliceCount + 1), g := min 64 (c.spliceCount + 1),
        last := sentAt f mode (advanced c i j F) (min 64 (c.spliceCount + 1)),
        saturations := countedAt f mode (advanced c i j F) } := by
  unfold splicingFrame
  simp only [show (countedDown c).splice = .rise from hs]
  rw [hadv.filled, hadv.1, countUp_eq, produce_like (z := advanced c i j F)]
  · rfl
  · exact ⟨rfl, rfl, rfl, rfl, rfl⟩

end Frames

/-! ### The frame by the state it began in -/

/-- A converter's frame by a given state (R33, R34, R37, R43). -/
def frameIn (f : Cells Int) (mode : LinkMode) (framed : Bool) (slice : BitVec 32) (state : CvState) (x : Conv) : Conv :=
  match state with
  | .dark => { darkFrame x with leaveDue := x.rampCount == 64 && framed && mode != .off }
  | .acquiring => measureFrame mode x
  | .unsupported => measureFrame mode x
  | .locked => lockedFrame f mode slice x
  | .splicing => splicingFrame f mode x

section Begun
variable {f : Cells Int} {mode : LinkMode} {framed : Bool} {slice : BitVec 32} {c : Conv} {i : BitVec 32} {j : BitVec 24}
  {F : Int}

theorem beginConv_eq : beginConv f mode framed slice c =
    frameIn f mode framed slice (if mode = .off then enterDark (countedDown c) else countedDown c).state
      (if mode = .off then enterDark (countedDown c) else countedDown c) := rfl

theorem enterDark_running (h : c.state ≠ .dark) : enterDark (countedDown c) =
    { countedDown c with state := .dark, rampStart := c.last, rampCount := 0, filter := none, leaveDue := false,
                         jumpDue := false } := if_neg h

theorem beginConv_dark (h : c.state = .dark) : beginConv f mode framed slice c =
    { darkFrame (countedDown c) with leaveDue := c.rampCount == 64 && framed && mode != .off } := by
  have hdark : enterDark (countedDown c) = countedDown c := if_pos h
  rw [beginConv_eq, hdark, ite_self, show (countedDown c).state = .dark from h]
  rfl

theorem beginConv_off (h : c.state ≠ .dark) : beginConv f .off framed slice c =
    { darkFrame (enterDark (countedDown c)) with leaveDue := false } := by
  rw [beginConv_eq, if_pos rfl, enterDark_running h]
  rfl

theorem beginConv_runs (hmode : mode ≠ .off) :
    beginConv f mode framed slice c = frameIn f mode framed slice c.state (countedDown c) := by
  rw [beginConv_eq, if_neg hmode]
  rfl

theorem beginConv_measures (hmode : mode ≠ .off) (h : c.state = .acquiring ∨ c.state = .unsupported) :
    beginConv f mode framed slice c = measureFrame mode (countedDown c) := by
  rw [beginConv_runs hmode]
  rcases h with h | h <;> rw [h, frameIn]

theorem beginConv_locked (hmode : mode ≠ .off) (h : c.state = .locked) :
    beginConv f mode framed slice c = lockedFrame f mode slice (countedDown c) := by
  rw [beginConv_runs hmode, h, frameIn]

theorem beginConv_splicing (hmode : mode ≠ .off) (h : c.state = .splicing) :
    beginConv f mode framed slice c = splicingFrame f mode (countedDown c) := by
  rw [beginConv_runs hmode, h, frameIn]

theorem lockedFrame_marks (hadv : Advances mode c i j F) :
    (lockedFrame f mode slice (countedDown c)).leaveDue = false ∧
    (lockedFrame f mode slice (countedDown c)).jumpDue = false ∧
    (lockedFrame f mode slice (countedDown c)).window =
      if ¬ validFill mode F = true ∧ 1 < c.window then 4096 else c.window - 1 := by
  by_cases hvalid : validFill mode F = true
  · rw [lockedFrame_valid hadv hvalid, if_neg (fun h : ¬ validFill mode F = true ∧ _ => h.1 hvalid)]
    exact ⟨rfl, rfl, rfl⟩
  · by_cases hw : 1 < c.window
    · rw [lockedFrame_reacquires hadv hvalid hw, if_pos ⟨hvalid, hw⟩]
      exact ⟨rfl, rfl, rfl⟩
    · rw [lockedFrame_splices hadv hvalid (Nat.not_lt.1 hw), if_neg (fun h : _ ∧ 1 < c.window => hw h.2)]
      by_cases hx : extremeFill mode F = true
      · rw [startSplice_jumps hx]
        exact ⟨rfl, rfl, rfl⟩
      · rw [startSplice_stands hx]
        exact ⟨rfl, rfl, rfl⟩

theorem splicingFrame_marks (hadv : Advances mode c i j F) :
    (splicingFrame f mode (countedDown c)).leaveDue = false ∧
    (splicingFrame f mode (countedDown c)).window = c.window - 1 ∧
    ((splicingFrame f mode (countedDown c)).jumpDue = true ↔
      c.splice = .fall ∧ 64 ≤ c.spliceCount ∧ c.jumped = false) := by
  cases hs : c.splice with
  | rise =>
    rw [splicingFrame_rises hadv hs]
    exact ⟨rfl, rfl, nofun, fun h => absurd h.1 (by decide)⟩
  | fall =>
    by_cases hk : c.spliceCount < 64
    · by_cases hx : c.jumped = true ∨ ¬ extremeFill mode F = true
      · rw [splicingFrame_falls hadv hs hk hx]
        exact ⟨rfl, rfl, nofun, fun h => absurd h.2.1 (Nat.not_le.2 hk)⟩
      · rw [not_or, Bool.not_eq_true, Classical.not_not] at hx
        rw [splicingFrame_jumps hadv hs hk hx.1 hx.2]
        exact ⟨rfl, rfl, nofun, fun h => absurd h.2.1 (Nat.not_le.2 hk)⟩
    · cases hj : c.jumped with
      | true =>
        rw [splicingFrame_turns hadv hs (Nat.not_lt.1 hk) hj]
        exact ⟨rfl, rfl, nofun, fun h => absurd h.2.2 (by decide)⟩
      | false =>
        rw [splicingFrame_waits hs (Nat.not_lt.1 hk) hj]
        exact ⟨rfl, rfl, fun _ => ⟨rfl, Nat.not_lt.1 hk, rfl⟩, fun _ => rfl⟩

/-- The window and the two marks of a converter's frame, in every state and mode (R33, R43, R45). -/
theorem beginConv_marks (hadv : Advances mode c i j F) :
    (beginConv f mode framed slice c).window =
      (if c.state = .locked ∧ mode ≠ .off ∧ ¬ validFill mode F = true ∧ 1 < c.window then 4096 else c.window - 1) ∧
    ((beginConv f mode framed slice c).leaveDue = true ↔
      c.state = .dark ∧ c.rampCount = 64 ∧ framed = true ∧ mode ≠ .off) ∧
    ((beginConv f mode framed slice c).jumpDue = true ↔ mode ≠ .off ∧ c.state = .splicing ∧ c.splice = .fall ∧
      64 ≤ c.spliceCount ∧ c.jumped = false) := by
  by_cases hdark : c.state = .dark
  · rw [beginConv_dark hdark, hdark]
    refine ⟨rfl, ?_, nofun, fun h => absurd h.2.1 (by decide)⟩
    simp [bne_iff_ne, and_assoc]
  · by_cases hoff : mode = .off
    · subst hoff
      rw [beginConv_off hdark, if_neg (fun h => h.2.1 rfl)]
      rw [enterDark_running hdark]
      exact ⟨rfl, iff_of_false nofun (fun h => hdark h.1), iff_of_false nofun (fun h => h.1 rfl)⟩
    · cases h : c.state with
      | dark => exact absurd h hdark
      | acquiring =>
        rw [beginConv_measures hoff (.inl h), if_neg (fun h => absurd h.1 (by decide))]
        exact ⟨rfl, iff_of_false nofun (fun h => absurd h.1 (by decide)),
          iff_of_false nofun (fun h => absurd h.2.1 (by decide))⟩
      | unsupported =>
        rw [beginConv_measures hoff (.inr h), if_neg (fun h => absurd h.1 (by decide))]
        exact ⟨rfl, iff_of_false nofun (fun h => absurd h.1 (by decide)),
          iff_of_false nofun (fun h => absurd h.2.1 (by decide))⟩
      | locked =>
        rw [beginConv_locked hoff h]
        obtain ⟨hleave, hjump, hwindow⟩ := lockedFrame_marks (f := f) (slice := slice) hadv
        rw [hleave, hjump, hwindow]
        refine ⟨?_, iff_of_false nofun (fun h => absurd h.1 (by decide)),
          iff_of_false nofun (fun h => absurd h.2.1 (by decide))⟩
        simp only [ne_eq, hoff, not_false_eq_true, true_and]
      | splicing =>
        rw [beginConv_splicing hoff h, if_neg (fun h => absurd h.1 (by decide))]
        obtain ⟨hleave, hwindow, hjump⟩ := splicingFrame_marks (f := f) hadv
        rw [hleave, hwindow, hjump]
        exact ⟨rfl, iff_of_false nofun (fun h => absurd h.1 (by decide)), fun h => ⟨hoff, rfl, h⟩, fun h => h.2.2⟩

end Begun

/-! ### The interpolation (R38, R39) -/

theorem saturate24_eq (y : Int) : saturate24 y = BitVec.ofInt 24 (max (-8388608) (min 8388607 y)) := by
  rw [saturate24, clampInt_eq_max_min (by decide)]

theorem outside24_iff (y : Int) : outside24 y = true ↔ y < -8388608 ∨ 8388607 < y := by
  rw [outside24, Bool.or_eq_true, decide_eq_true_iff, decide_eq_true_iff]

theorem slotValue_convert {mode : LinkMode} {c : Conv} {set : SetId} (hmode : mode ≠ .direct) (h : c.filter = some set)
    (f : Cells Int) (slot : SlotId) : slotValue f mode c slot = interpolate f set c slot := by
  unfold slotValue
  rw [h]
  cases mode with
  | direct => exact absurd rfl hmode
  | off => rfl
  | convert => rfl

/-- The terms of the accumulator, by the phase: with phase 63 the upper term reads phase 0 on the window advanced by one. -/
theorem tapTerm_eq (f : Cells Int) (set : SetId) (c : Conv) (slot : SlotId) {φ : Nat} (hφ : φ ≤ 63) (β t : Nat) :
    tapTerm f set c slot φ β t =
      readCell 0 f (set.val * 1536 + φ * 24 + t) * (1024 - β : Int) * ringSample c slot (t - 11 : Int) +
        (if φ < 63 then readCell 0 f (set.val * 1536 + (φ + 1) * 24 + t) * β * ringSample c slot (t - 11 : Int)
         else readCell 0 f (set.val * 1536 + 0 * 24 + t) * β * ringSample c slot (t - 10 : Int)) := by
  unfold tapTerm coefficient
  split
  · ring
  · rw [show φ = 63 by omega]

theorem phase_le (c : Conv) : c.rFrac.toNat / 262144 ≤ 63 := by
  have := c.rFrac.isLt
  omega

theorem interpolate_eq (f : Cells Int) (set : SetId) (c : Conv) (slot : SlotId) :
    interpolate f set c slot = roundDiv ((List.range 24).map (tapTerm f set c slot (c.rFrac.toNat / 262144)
      (c.rFrac.toNat / 256 % 1024))).sum 268435456 := by
  rw [interpolate, List.sum_eq_foldl, List.foldl_map]

/-- The converter of a link in the next house frame of a state that owes nothing. -/
theorem houseFrame_cv (s : State) (b : Nat) (l : LinkId) : (s.formAudio.openFrame b).cv[l] =
    beginConv s.tables.filters (s.modeOf l) (s.rx[l].state == .framed) s.tb.slice s.cv[l] := by
  rw [openFrame_cv]
  have hframe := formAudio_frame s
  have htables : s.formAudio.tables = s.tables := formAudio_tables s
  have hrx : s.formAudio.rx = s.rx := by rw [hframe]
  have htb : s.formAudio.tb = s.tb := by rw [hframe]
  have hcv : s.formAudio.cv = s.cv := by rw [hframe]
  rw [htables, hrx, htb, hcv, show s.formAudio.modeOf l = s.modeOf l from congrArg (fun u => u.linkConfig[l].mode) htables]

/-- Settles O22: the frame by the state it began in, and the interpolation term by term. -/
theorem converterHouseFrame : Obligations.ConverterHouseFrame := by
  refine ⟨?frame, ?values⟩
  case frame =>
    intro s b l hb htb hs hfit
    refine ⟨s.formAudio.openFrame b, exec_houseFrame_settled hb htb hs hfit, ?_⟩
    rw [houseFrame_cv]
    have hframed : (s.rx[l].state == .framed) = true ↔ s.rx[l].state = .framed := beq_iff_eq
    generalize (s.rx[l].state == RxState.framed) = framed at *
    intro c x direct pos fill valid extreme sent counted advanced' values replaced'
    have hx : x = beginConv s.tables.filters (s.modeOf l) framed s.tb.slice c := rfl
    have hadv : Advances (s.modeOf l) c (BitVec.ofNat 32 (pos / 16777216)) (BitVec.ofNat 24 pos) fill :=
      advances_position _ _ pos rfl
    have hvalid : validFill (s.modeOf l) fill = true ↔ valid := validFill_iff _ _
    have hextreme : extremeFill (s.modeOf l) fill = true ↔ extreme := extremeFill_iff _ _
    have hadvanced : advanced' = advanced c (BitVec.ofNat 32 (pos / 16777216)) (BitVec.ofNat 24 pos) fill := rfl
    have hreplaced : replaced' = replaced (s.modeOf l) c fill := rfl
    have hsent (y : Conv) (g : Nat) : sentAt s.tables.filters (s.modeOf l) y g = sent g (values y) := rfl
    have hcounted (y : Conv) (hy : y.saturations = c.saturations) :
        countedAt s.tables.filters (s.modeOf l) y = counted (values y) := by unfold countedAt; rw [hy]
    have hsame : advanced'.saturations = c.saturations ∧ replaced'.saturations = c.saturations := ⟨rfl, rfl⟩
    clear_value x fill pos c extreme sent counted values
    obtain ⟨hwindow, hleave, hjump⟩ := beginConv_marks (f := s.tables.filters) (framed := framed) (slice := s.tb.slice) hadv
    rw [← hx] at hwindow hleave hjump
    refine ⟨?window, ?leaves, hjump, ?dark, ?off, ?measures, ?locked, ?splicing⟩
    case window => exact hwindow.trans (if_congr (by rw [hvalid]) rfl rfl)
    case leaves =>
      rw [hleave, hframed]
      cases s.modeOf l <;> simp
    case dark =>
      intro hstate
      rw [beginConv_dark hstate] at hx
      rw [hx, ← countUp_eq]
      exact ⟨hstate, rfl, rfl, rfl⟩
    case off =>
      intro hstate hoff
      rw [hoff, beginConv_off hstate, enterDark_running hstate] at hx
      rw [hx]
      exact ⟨rfl, rfl, rfl, rfl, rfl⟩
    case measures =>
      intro hmode hstate
      rw [beginConv_measures hmode hstate] at hx
      rw [hx]
      refine ⟨rfl, rfl, rfl, ?_⟩
      rw [← countUp_eq]
      revert hmode
      change _ → _ = if s.modeOf l = .direct then _ else _
      cases s.modeOf l with
      | off => exact fun h => absurd rfl h
      | convert => exact fun _ => rfl
      | direct => exact fun _ => rfl
    case locked =>
      intro hmode hstate
      rw [beginConv_locked hmode hstate] at hx
      refine ⟨fun hv => ?_, fun hv hw => ?_, fun hv hw he => ?_, fun hv hw he => ?_⟩
      · rw [hx, lockedFrame_valid hadv (hvalid.2 hv),
          ← hadvanced, hsent, hcounted _ hsame.1]
      · rw [hx, lockedFrame_reacquires hadv (hv ∘ hvalid.1) hw, secondSlip, countUp_eq, ← hadvanced]
      · rw [hx, lockedFrame_splices hadv (hv ∘ hvalid.1) hw,
          startSplice_stands (he ∘ hextreme.1), ← hadvanced, hsent, hcounted _ hsame.1]
      · rw [hx, lockedFrame_splices hadv (hv ∘ hvalid.1) hw, startSplice_jumps (hextreme.2 he),
          ← hreplaced, hsent, hcounted _ hsame.2]
    case splicing =>
      intro hmode hstate
      rw [beginConv_splicing hmode hstate] at hx
      refine ⟨fun hs hk h => ?_, fun hs hk hj he => ?_, fun hs hk hj => ?_, fun hs hk hj => ?_, fun hs => ?_⟩
      · rw [hx, splicingFrame_falls hadv hs hk (h.imp_right (· ∘ hextreme.1)),
          ← hadvanced, hsent, hcounted _ hsame.1]
      · rw [hx, splicingFrame_jumps hadv hs hk hj (hextreme.2 he),
          ← hreplaced, hsent, hcounted _ hsame.2]
      · rw [hx, splicingFrame_turns hadv hs (Nat.le_of_eq hk.symm) hj,
          ← hadvanced, hsent, hcounted _ hsame.1]
      · rw [hx, splicingFrame_waits hs (Nat.le_of_eq hk.symm) hj]
        rfl
      · rw [hx, splicingFrame_rises hadv hs,
          ← hadvanced, hsent, hcounted _ hsame.1]
  case values =>
    intro f set c slot mode coef x φ β
    refine ⟨fun y => ⟨saturate24_eq y, outside24_iff y⟩, fade_eq, fun hmode => ?_, fun hmode hset => ?_⟩
    · rw [hmode]; rfl
    · rw [slotValue_convert hmode hset, interpolate_eq]
      refine congrArg (fun a : List Int => roundDiv a.sum 268435456) (List.map_congr_left fun k _ => ?_)
      exact tapTerm_eq f set c slot (phase_le c) _ k

end Sys2Proof.Machine
end

section
/-! PROOF. The audio of a house frame: O50 and O4. -/

namespace Sys2Proof.Machine

/-! ### The words that a frame writes (R59) -/

/-- The store after the accesses of some channels, each at the write pointer it had as the frame began. -/
def State.written (s : State) (m : Cells Sample) (cs : List ChannelId) : Cells Sample :=
  cs.foldl (fun m c => writeLine m (s.regionOf c) s.lines[c] (s.channelSample c)) m

/-- The state `t` differs from `s` in measurements, lines and the store alone. -/
def AccessOf (s t : State) : Prop := t = { s with meas := t.meas, store := t.store, lines := t.lines }

theorem accessOf_accessChannel {s t : State} (clips : Vector Bool 32) (c : ChannelId) (h : AccessOf s t) :
    AccessOf s (t.accessChannel clips c) := by
  unfold AccessOf at *
  rw [accessChannel_frame, h]

theorem accessChannel_store {s t : State} (clips : Vector Bool 32) (c : ChannelId) (h : AccessOf s t)
    (hl : t.lines[c] = s.lines[c]) :
    (t.accessChannel clips c).store = writeLine t.store (s.regionOf c) s.lines[c] (s.channelSample c) := by
  have hsample : t.channelSample c = s.channelSample c := by unfold AccessOf at h; rw [h]; rfl
  have hregion : t.regionOf c = s.regionOf c := by unfold AccessOf at h; rw [h]; rfl
  change writeLine t.store (t.regionOf c) t.lines[c] (t.channelSample c) = _
  rw [hsample, hregion, hl]

theorem accessChannel_line_ne (clips : Vector Bool 32) (t : State) {c d : ChannelId} (h : d ≠ c) :
    (t.accessChannel clips c).lines[d] = t.lines[d] :=
  State.setLine_get_ne _ c d _ h

theorem accessed_store {s : State} (clips : Vector Bool 32) : ∀ (cs : List ChannelId) (t : State), cs.Nodup →
    AccessOf s t → (∀ d ∈ cs, t.lines[d] = s.lines[d]) →
    (cs.foldl (State.accessChannel clips) t).store = s.written t.store cs
  | [], _, _, _, _ => rfl
  | c :: cs, t, hn, ht, hl => by
    rw [List.nodup_cons] at hn
    have hstore := accessChannel_store clips c ht (hl c List.mem_cons_self)
    have hrest : ∀ d ∈ cs, (t.accessChannel clips c).lines[d] = s.lines[d] := fun d hd =>
      (accessChannel_line_ne clips t (fun e : d = c => hn.1 (e ▸ hd))).trans (hl d (List.mem_cons_of_mem c hd))
    rw [List.foldl_cons, accessed_store clips cs _ hn.2 (accessOf_accessChannel clips c ht) hrest, hstore]
    rfl

theorem formAudio_store (s : State) : s.formAudio.store = s.written s.store allChannels := by
  have hself : AccessOf s s := by unfold AccessOf; rfl
  have hstore := accessed_store (Vector.ofFn fun c => s.outputClips c (s.channelLine c)) allChannels s
    (List.nodup_finRange 32) hself (fun _ _ => rfl)
  exact hstore

/-- The word at which the channel's line writes, of one with a region. -/
def State.WritesAt (s : State) (c : ChannelId) (w : Nat) : Prop :=
  ∃ r : Region, s.regionOf c = some r ∧ w = r.base * 1024 + s.lines[c].wptr

theorem readCell_writeLine_ne {s : State} {m : Cells Sample} (h : cellsWf 0#24 m = true) {c : ChannelId} {w : Nat}
    (hw : ¬ s.WritesAt c w) (x : Sample) :
    readCell 0#24 (writeLine m (s.regionOf c) s.lines[c] x) w = readCell 0#24 m w := by
  unfold writeLine
  split
  · rfl
  · next r hr => rw [readCell_writeCell h, if_neg (fun e => hw ⟨r, hr, e⟩)]

theorem readCell_writeLine_self {s : State} {m : Cells Sample} (h : cellsWf 0#24 m = true) {c : ChannelId} {w : Nat}
    (hw : s.WritesAt c w) (x : Sample) : readCell 0#24 (writeLine m (s.regionOf c) s.lines[c] x) w = x := by
  obtain ⟨r, hr, he⟩ := hw
  rw [hr]
  exact (readCell_writeCell h _ _ _).trans (if_pos he)

theorem readCell_written_ne (s : State) (w : Nat) : ∀ (cs : List ChannelId) (m : Cells Sample), cellsWf 0#24 m = true →
    (∀ c ∈ cs, ¬ s.WritesAt c w) → readCell 0#24 (s.written m cs) w = readCell 0#24 m w
  | [], _, _, _ => rfl
  | c :: cs, _, h, hw =>
    (readCell_written_ne s w cs _ (writeLine_wf _ _ _ h) (fun d hd => hw d (List.mem_cons_of_mem c hd))).trans
      (readCell_writeLine_ne h (hw c List.mem_cons_self) _)

/-- A word at which one channel alone writes holds that channel's sample. -/
theorem readCell_written_self (s : State) {c : ChannelId} {w : Nat} (hc : s.WritesAt c w) :
    ∀ (cs : List ChannelId) (m : Cells Sample), cellsWf 0#24 m = true → c ∈ cs → cs.Nodup →
      (∀ d ∈ cs, d ≠ c → ¬ s.WritesAt d w) → readCell 0#24 (s.written m cs) w = s.channelSample c
  | d :: cs, _, h, hm, hn, hw => by
    rw [List.nodup_cons] at hn
    rcases List.mem_cons.1 hm with rfl | hin
    · exact (readCell_written_ne s w cs _ (writeLine_wf _ _ _ h) (fun d hd =>
        hw d (List.mem_cons_of_mem c hd) (fun e => hn.1 (e ▸ hd)))).trans (readCell_writeLine_self h hc _)
    · exact readCell_written_self s hc cs _ (writeLine_wf _ _ _ h) hin hn.2
        (fun e he => hw e (List.mem_cons_of_mem d he))

/-- Two regions that share no page write no word in common. -/
theorem regions_disjoint {r y : Region} {p q : Nat} (h : sharePage (some r) (some y) = false) (hp : p < r.count * 1024)
    (hq : q < y.count * 1024) : r.base * 1024 + p ≠ y.base * 1024 + q := by
  have hshare := decide_eq_false_iff_not.1 h
  omega

theorem formAudio_word_ne {s : State} (h : cellsWf 0#24 s.store = true) {w : Nat}
    (hw : ∀ (d : ChannelId) (y : Region), s.regionOf d = some y → w ≠ y.base * 1024 + s.lines[d].wptr) :
    readCell 0#24 s.formAudio.store w = readCell 0#24 s.store w := by
  rw [formAudio_store]
  exact readCell_written_ne s w _ _ h fun d _ ⟨y, hy, he⟩ => hw d y hy he

theorem formAudio_word {s : State} (h : cellsWf 0#24 s.store = true) {c : ChannelId} {r : Region}
    (hr : s.regionOf c = some r) (hsound : Safety.BankSound s.active)
    (hptr : ∀ (d : ChannelId) (y : Region), s.regionOf d = some y → s.lines[d].wptr < y.count * 1024) :
    readCell 0#24 s.formAudio.store (r.base * 1024 + s.lines[c].wptr) = s.channelSample c := by
  rw [formAudio_store]
  refine readCell_written_self s ⟨r, hr, rfl⟩ _ _ h (List.mem_finRange c) (List.nodup_finRange 32) ?_
  rintro d - hd ⟨y, hy, he⟩
  have hshare := hsound.2 c d hd.symm
  rw [show s.active.regions[c] = some r from hr, show s.active.regions[d] = some y from hy] at hshare
  exact regions_disjoint hshare (hptr c r hr) (hptr d y hy) he

/-! ### O50: the measurement tap and the line's next frame (R59, R64, R66, R80, R82, R83) -/

theorem stageOutput_eq (b0 b1 b2 a1 a2 : Int) (q : Biquad) (x : Int) : stageOutput b0 b1 b2 a1 a2 q x =
    max (-33554432) (min 33554431
      (roundDiv (b0 * x + b1 * q.x1 + b2 * q.x2 - a1 * q.y1 - a2 * q.y2) 4194304)) := by
  rw [stageOutput, saturate26, clampInt_eq_max_min (by decide)]

theorem fullScale_iff (x : Sample) : fullScale x = true ↔ x.toInt = -8388608 ∨ x.toInt = 8388607 := by
  rw [fullScale, Bool.or_eq_true, beq_iff_eq, beq_iff_eq]

/-- The tap of one sample, with the count of its saturated output. -/
theorem countClip_tapMeas (clipped : Bool) (w : Vector Int 10) (x : Sample) (q : Meas) (y1 y2 : Int)
    (h1 : stageOutput w[0] w[1] w[2] w[3] w[4] q.stage1 x.toInt = y1)
    (h2 : stageOutput w[5] w[6] w[7] w[8] w[9] q.stage2 y1 = y2) : countClip clipped (tapMeas w x q) =
    { q with
      stage1 := { x1 := x.toInt, x2 := q.stage1.x1, y1 := y1, y2 := q.stage1.y1 },
      stage2 := { x1 := y1, x2 := q.stage2.x1, y1 := y2, y2 := q.stage2.y1 },
      building := { acc := q.building.acc + y2.natAbs ^ 2 / 65536, peak := max q.building.peak x.toInt.natAbs,
                    fsCount := q.building.fsCount + (if x.toInt = -8388608 ∨ x.toInt = 8388607 then 1 else 0),
                    outClips := q.building.outClips + (if clipped then 1 else 0) } } := by
  have htap : tapMeas w x q =
      { q with
        stage1 := { x1 := x.toInt, x2 := q.stage1.x1, y1 := y1, y2 := q.stage1.y1 },
        stage2 := { x1 := y1, x2 := q.stage2.x1, y1 := y2, y2 := q.stage2.y1 },
        building := addSample q.building x y2 } := by
    simp only [tapMeas, h1, h2]
    rfl
  have hcount : (if fullScale x then q.building.fsCount + 1 else q.building.fsCount) =
      q.building.fsCount + (if x.toInt = -8388608 ∨ x.toInt = 8388607 then 1 else 0) := by
    rw [if_congr (fullScale_iff x) rfl rfl]
    split <;> rfl
  rw [htap, addSample, hcount]
  cases clipped <;> rfl

theorem outputClips_iff (s : State) (c : ChannelId) (x : Sample) : s.outputClips c x = true ↔
    scaled x (s.channelGain c) < -8388608 ∨ 8388607 < scaled x (s.channelGain c) := outside24_iff _

/-- The depth of a line after its access, and its write pointer (R59). -/
theorem accessLine_eq (region : Option Region) (l : Line) : accessLine region l =
    { l with v := match region with
                  | none => l.v
                  | some r => if l.v < r.count * 1024 then l.v + 1 else l.v,
             wptr := match region with
                     | none => l.wptr
                     | some r => (l.wptr + 1) % (r.count * 1024) } := by
  cases region <;> rfl

/-- A line as a house frame begins, by its move, over `l`: the line after its access, reading at its delay (R64, R66). -/
theorem beginLine_eq (k l : Line) (h : { k with readAt := k.cur, readAlso := none } = l) : beginLine k =
    match k.move with
    | .idle => l
    | .slew => if k.cur = k.tgt then { l with move := .idle, slew := 0 } else { l with slew := k.slew + 1 }
    | .cutFall => if k.g = 0 then { l with jumpDue := true } else { l with g := k.g - 1 }
    | .cutRise => { l with g := min 64 (k.g + 1) } := by
  subst h
  rw [← countUp_eq]
  obtain ⟨_, _, _, _, move, _, _, _, _, _, _, _⟩ := k
  cases move <;> rfl

theorem houseFrame_line (s : State) (b : Nat) (c : ChannelId) :
    (s.formAudio.openFrame b).lines[c] = beginLine (accessLine (s.regionOf c) s.lines[c]) := by
  rw [openFrame_line, formAudio_line]

/-- Settles O50: the tap, the words written at the pointers of the frame, and the line's next frame. -/
theorem measurementTapAndLineAccess : Obligations.MeasurementTapAndLineAccess := by
  intro s b c hb htb hs hfit hcanonical
  refine ⟨s.formAudio.openFrame b, exec_houseFrame_settled hb htb hs hfit, ?_⟩
  have hmeas : (s.formAudio.openFrame b).meas = s.formAudio.meas := by rw [openFrame_frame]
  have hstore : (s.formAudio.openFrame b).store = s.formAudio.store := by rw [openFrame_frame]
  rw [hmeas, hstore, houseFrame_line, formAudio_meas]
  intro x q w y1 y2 out a scaled'
  refine ⟨?tap, ?line, fun r hr hsound hptr => formAudio_word hcanonical.1 hr hsound hptr,
    fun w hw => formAudio_word_ne hcanonical.1 hw⟩
  case tap =>
    refine (countClip_tapMeas _ w x q y1 y2 (stageOutput_eq ..) (stageOutput_eq ..)).trans ?_
    have hclips : s.outputClips c (s.channelLine c) = true ↔ scaled' < -8388608 ∨ 8388607 < scaled' :=
      outputClips_iff s c _
    rw [if_congr hclips rfl rfl]
  case line =>
    intro depth pointer l
    have hl : { accessLine (s.regionOf c) s.lines[c] with
        readAt := (accessLine (s.regionOf c) s.lines[c]).cur, readAlso := none } = l := by
      rw [accessLine_eq] <;> rfl
    refine (beginLine_eq _ l hl).trans ?_
    rw [accessLine_eq] <;> rfl

/-! ### O4: the output samples (R29, R107 to R109) -/

theorem saturate24_toInt (x : Sample) : saturate24 x.toInt = x := by
  have hlow : -8388608 ≤ x.toInt := BitVec.le_toInt x
  have hhigh : x.toInt < 8388608 := BitVec.toInt_lt
  rw [saturate24, clampInt, if_neg (by omega), if_neg (by omega)]
  exact BitVec.ofInt_toInt

/-- At A = 0 the multiplier is 1.0: the sample leaves as it is. -/
theorem scaled_zero (x : Sample) : scaled x 0 = x.toInt := by
  rw [scaled, show multiplier 0 = 4194304 by decide, roundDiv]
  omega

theorem outputSample_eq (s : State) (c : ChannelId) (x : Sample) : s.outputSample c x =
    match programmeOf s.active c with
    | some p => fade (saturate24 (roundDiv (x.toInt * multiplier
        (clampInt (-400) 120 (s.gain[p].frameApp + s.gain[p].frameTrim))) 4194304)) s.gain[p].fader
    | none => x := by
  unfold State.outputSample
  cases programmeOf s.active c with
  | none =>
    change saturate24 (scaled x 0) = x
    rw [scaled_zero, saturate24_toInt]
  | some p => rfl

theorem ofNat_val_add {i : Fin 32} {first k : Nat} (h : first + k = i.val) : Fin.ofNat 32 (first + k) = i := by
  rw [h]
  exact Fin.ext (Nat.mod_eq_of_lt i.isLt)

/-- The slots of a house link, of the 16 entries that begin at `first` (R29). -/
theorem outSlots_get (s : State) (outs : Vector Sample 32) {i : Fin 32} {first k : Nat} (hk : k < 16)
    (h : first + k = i.val) : (s.outSlots outs first)[k]? = some (slotOf outs s.active.outputMap[i]) := by
  unfold State.outSlots
  rw [List.getElem?_map, List.getElem?_range hk, Option.map_some]
  exact congrArg (fun j : Fin 32 => some (slotOf outs s.active.outputMap[j])) (ofNat_val_add h)

/-- The slot of an OUTPUT_MAP entry on its house link. -/
theorem formAudio_slot (s : State) (i : Fin 32) :
    (if i.val < 16 then s.formAudio.h0 else s.formAudio.h1).slots[i.val % 16]? =
      some (slotOf (Vector.ofFn s.channelOutput) s.active.outputMap[i]) := by
  have hi := i.isLt
  rw [formAudio_h0, formAudio_h1]
  by_cases h : i.val < 16
  · rw [if_pos h]
    exact outSlots_get s _ (Nat.mod_lt _ (by decide)) (by omega)
  · rw [if_neg h]
    exact outSlots_get s _ (Nat.mod_lt _ (by decide)) (by omega)

/-! ### The fader and the alarm lines (R110, R111, R135) -/

theorem mutedGain_iff (g : Gain) : mutedGain g = true ↔ g.reasons ≠ 0#32 ∨ g.command = true := by
  rw [mutedGain, Bool.or_eq_true, bne_iff_ne]

theorem beginGain_eq (r : ProgRecord) (g : Gain) : beginGain r g =
    { g with fader := if g.reasons ≠ 0#32 ∨ g.command = true then g.fader - 1 else min 64 (g.fader + 1),
             serviceDue := true, stepDue := false, frameTrim := r.trim, frameApp := g.app } := by
  rw [beginGain, moveFader, countUp_eq, if_congr (mutedGain_iff g) rfl rfl]

theorem raised_iff (x : RuleState) : raised x = true ↔ x = .active ∨ x = .easing ∨ x = .held := by
  cases x <;> decide

theorem lineDriven_iff (s : State) (sev : Severity) : s.lineDriven sev = true ↔
    ∃ r : RuleId, s.tables.ruleRecords[r].enabled = true ∧ s.tables.ruleRecords[r].severity = sev ∧
      (s.alarm.rules[r].state = .active ∨ s.alarm.rules[r].state = .easing ∨ s.alarm.rules[r].state = .held) := by
  simp only [State.lineDriven, allRules, List.any_eq_true, List.mem_finRange, true_and, Bool.and_eq_true, beq_iff_eq,
    raised_iff, and_assoc]

/-! ### The copy of a frame (R148) -/

/-- The table and the entry at a copy position, in the order of R148. -/
def copyPlace (pos : Nat) : TableName × Nat :=
  if pos < 32 then (.slotMap, pos) else if pos < 64 then (.outputMap, pos - 32)
  else if pos < 72 then (.programmes, pos - 64) else (.regions, pos - 72)

theorem set_ofNat {α : Type} {n : Nat} [NeZero n] (v w : Vector α n) {i : Nat} (hi : i < n) :
    v.set (Fin.ofNat n i).val w[Fin.ofNat n i] (Fin.ofNat n i).isLt = v.set i w[i] hi := by
  have hval : (Fin.ofNat n i).val = i := Nat.mod_eq_of_lt hi
  simp only [Fin.getElem_fin, hval]

/-- The copy of a frame is a record of the active bank put into the same entry of the standby bank. -/
theorem copyNext_eq {t : Tables} (hpos : t.copyPos < 104) : copyNext t =
    { putEntry t (copyPlace t.copyPos).2 (entryOf t (activeBank t) (copyPlace t.copyPos).1 (copyPlace t.copyPos).2) with
      copyPos := t.copyPos + 1 } := by
  unfold copyNext copyPlace copyEntry
  by_cases h1 : t.copyPos < 32
  · rw [if_pos h1, dif_pos h1]
    simp only [entryOf, putEntry, putBanked, set_ofNat _ _ h1]
  · by_cases h2 : t.copyPos - 32 < 32
    · rw [if_neg h1, dif_neg h1, if_pos (show t.copyPos < 64 by omega), dif_pos h2]
      simp only [entryOf, putEntry, putBanked, set_ofNat _ _ h2]
    · by_cases h3 : t.copyPos - 64 < 8
      · rw [if_neg h1, dif_neg h1, if_neg (show ¬ t.copyPos < 64 by omega), dif_neg h2,
          if_pos (show t.copyPos < 72 by omega), dif_pos h3]
        simp only [entryOf, putEntry, putBanked, set_ofNat _ _ h3]
      · have h4 : t.copyPos - 72 < 32 := by omega
        rw [if_neg h1, dif_neg h1, if_neg (show ¬ t.copyPos < 64 by omega), dif_neg h2,
          if_neg (show ¬ t.copyPos < 72 by omega), dif_neg h3, dif_pos h4]
        simp only [entryOf, putEntry, putBanked, set_ofNat _ _ h4]

theorem copyPlace_lt {pos : Nat} (h : pos < 104) : (copyPlace pos).2 < tableSize (copyPlace pos).1 ∧
    (copyPlace pos).1 ≠ .filterSets := by
  unfold copyPlace
  split
  · exact ⟨by assumption, nofun⟩
  · split
    · exact ⟨by change pos - 32 < 32; omega, nofun⟩
    · split
      · exact ⟨by change pos - 64 < 8; omega, nofun⟩
      · exact ⟨by change pos - 72 < 32; omega, nofun⟩

theorem entryOf_table (t : Tables) (b : Routing) (n : TableName) (k : Nat) : (entryOf t b n k).table = n := by
  cases n <;> rfl

/-- After the copy the standby bank's entry at the position is the active bank's, and every other entry stands. -/
theorem copyNext_entries {t : Tables} (hpos : t.copyPos < 104) :
    writtenOf (copyNext t) (copyPlace t.copyPos).1 (copyPlace t.copyPos).2 =
      entryOf t (activeBank t) (copyPlace t.copyPos).1 (copyPlace t.copyPos).2 ∧
    ∀ (n : TableName) (k : Nat), k < tableSize n → ¬ (n = (copyPlace t.copyPos).1 ∧ k = (copyPlace t.copyPos).2) →
      writtenOf (copyNext t) n k = writtenOf t n k := by
  obtain ⟨hlt, hname⟩ := copyPlace_lt hpos
  rw [copyNext_eq hpos]
  generalize copyPlace t.copyPos = place at *
  obtain ⟨name, i⟩ := place
  have htable := entryOf_table t (activeBank t) name i
  generalize entryOf t (activeBank t) name i = r at *
  subst htable
  have hput (k : Nat) (hk : k < tableSize r.table) :
      writtenOf (putEntry t i r) r.table k = if k = i then r else writtenOf t r.table k :=
    writtenOf_putEntry_same r (fun h => absurd h hname) hlt hk
  refine ⟨(hput i hlt).trans (if_pos rfl), fun n k hk hne => ?_⟩
  by_cases hn : n = r.table
  · subst hn
    exact (hput k hk).trans (if_neg fun h => hne ⟨rfl, h⟩)
  · exact writtenOf_putEntry_other t i k r hn

theorem activeBank_copyNext (t : Tables) : activeBank (copyNext t) = activeBank t := activeBank_setStandbyBank _ _

theorem activeBank_copyBack (t : Tables) : activeBank (copyBack t) = activeBank t := by
  unfold copyBack
  split
  · exact activeBank_copyNext t
  · rfl

/-- What a house frame that owes nothing leaves as it was, but for the marks of its own frame. -/
theorem houseFrame_stands (s : State) (b : Nat) : (s.formAudio.openFrame b).sources = s.sources ∧
    (s.formAudio.openFrame b).loud = s.loud ∧ (s.formAudio.openFrame b).alarm = s.alarm ∧
    (s.formAudio.openFrame b).weights = s.weights ∧ (s.formAudio.openFrame b).tables = copyBack s.tables := by
  rw [openFrame_frame, formAudio_frame]
  exact ⟨rfl, rfl, rfl, rfl, rfl⟩

theorem houseFrame_gain (s : State) (b : Nat) (p : ProgId) :
    (s.formAudio.openFrame b).gain[p] = begunGain (s.record p) s.gain[p] := by
  rw [openFrame_gain, formAudio_gain, show s.formAudio.record p = s.record p from
    congrArg (fun t => (activeBank t).programmes[p]) (formAudio_tables s)]

theorem lineDriven_formAudio (s : State) (sev : Severity) : s.formAudio.lineDriven sev = s.lineDriven sev := by
  have halarm : s.formAudio.alarm = s.alarm := by rw [formAudio_frame]
  unfold State.lineDriven
  rw [formAudio_tables, halarm]

theorem selectedOf_formAudio (s : State) (c : ChannelId) : s.formAudio.selectedOf c = s.selectedOf c :=
  selectedOf_congr (formAudio_tables s) (by rw [formAudio_frame])

/-- The slot of an entry that names a channel, by the channel's output. -/
theorem slotOf_channel (s : State) (c : ChannelId) : slotOf (Vector.ofFn s.channelOutput) (some c) =
    { sample := s.outputSample c (s.channelLine c), valid := true } := by
  have hout : (Vector.ofFn s.channelOutput)[c] = s.channelOutput c := Vector.getElem_ofFn _
  change ({ sample := (Vector.ofFn s.channelOutput)[c], valid := true } : SlotCell) = _
  rw [hout, State.channelOutput]

/-- The copies that a house frame's beginning makes, and the one that it leaves due (R148). -/
theorem houseFrame_copyDue (s : State) (b : Nat) : (s.formAudio.openFrame b).frame.copyDue = true ↔
    s.tables.bankState = .copying ∧ s.tables.copyPos = 103 := by
  obtain ⟨-, -, -, -, -, -, hdue⟩ := openFrame_latches s.formAudio b
  rw [hdue, formAudio_tables, Bool.and_eq_true, beq_iff_eq, beq_iff_eq]

theorem copyBack_copies {t : Tables} (hstate : t.bankState = .copying) (hpos : t.copyPos < 103) :
    copyBack t = copyNext t := if_pos ⟨hstate, hpos⟩

theorem copyNext_position (t : Tables) : (copyNext t).copyPos = t.copyPos + 1 ∧ (copyNext t).bankState = t.bankState :=
  ⟨rfl, setStandbyBank_bankState _ _⟩

/-- Settles O4: the slots of the two links, the faders, the latches of the next frame and the copied entry. -/
theorem houseFrameOutputsAndFaders : Obligations.HouseFrameOutputsAndFaders := by
  intro s b i hb htb hs hfit
  obtain ⟨hh0, hh1, -⟩ := openFrame_links s b
  obtain ⟨hselected, hmaj, hmin, hntc, -, -, -⟩ := openFrame_latches s.formAudio b
  obtain ⟨hsources, hloud, halarm, hweights, htables⟩ := houseFrame_stands s b
  have hactive : (s.formAudio.openFrame b).active = s.active :=
    (congrArg activeBank htables).trans (activeBank_copyBack s.tables)
  rw [lineDriven_formAudio] at hmaj hmin hntc
  have hcopyDue := houseFrame_copyDue s b
  have hgain := houseFrame_gain s b
  refine ⟨s.formAudio.openFrame b, exec_houseFrame_settled hb htb hs hfit, ?slot, ?present, ?absent, ?selected, hsources,
    hactive, hloud, halarm, hweights, hcopyDue, ?copy, ?driven, ?_⟩
  case slot =>
    rw [hh0, hh1, formAudio_slot]
    cases s.active.outputMap[i] with
    | none => rfl
    | some c =>
      rw [slotOf_channel, outputSample_eq]
      rfl
  case present =>
    intro p r hr
    rw [hgain p, hr]
    exact beginGain_eq r s.gain[p]
  case absent =>
    intro p hr
    rw [hgain p, hr]
    rfl
  case selected =>
    intro c
    have hget : (Vector.ofFn s.formAudio.selectedOf)[c] = s.formAudio.selectedOf c := Vector.getElem_ofFn _
    rw [hselected, hget, selectedOf_formAudio]
    unfold State.selectedOf selectedSource
    cases s.sources[c] <;> rfl
  case copy =>
    intro hstate hpos
    have hcopy := htables.trans (copyBack_copies hstate hpos)
    obtain ⟨hentry, hothers⟩ := copyNext_entries (show s.tables.copyPos < 104 by omega)
    obtain ⟨hposition, hbankState⟩ := copyNext_position s.tables
    refine ⟨?_, ?_, ?_, hactive, ?_, ?_⟩
    · rw [hcopy, hposition]
    · exact Bool.eq_false_iff.2 fun h => absurd (hcopyDue.1 h).2 (by omega)
    · rw [hcopy, hbankState, hstate]
    · rw [hcopy]; exact hentry
    · rw [hcopy]; exact hothers
  case driven =>
    rw [hmaj, hmin, hntc]
    exact ⟨lineDriven_iff s _, lineDriven_iff s _, lineDriven_iff s _⟩
  · rw [hh0, hh1, formAudio_h0, formAudio_h1]
    refine ⟨rfl, rfl, rfl, rfl, rfl, rfl, fun hstate hpos => ⟨htables.trans (if_neg fun h => ?_), hcopyDue.2 ⟨hstate, hpos⟩⟩⟩
    omega

end Sys2Proof.Machine
end
